-- ==== Sys2Proof/Word.lean ====
section
/-! DEFINITION. The value types of OZKP-CORE: the limb (R8), the double-width accumulator (R9) and the command word (R51). -/

namespace Sys2Proof

/-- A limb, "an unsigned 64-bit word" (R8): every operand port and register. -/
abbrev Word := BitVec 64

/-- The 128-bit accumulator that lives inside one command (R9, R33). -/
abbrev DWord := BitVec 128

/-- The 32-bit command word (R51). -/
abbrev CmdBits := BitVec 32

/-- `M64`, the largest limb (R18). -/
abbrev M64 : Word := 0xFFFFFFFFFFFFFFFF

end Sys2Proof
end

