-- ==== Sys2Proof/Syntax.lean ====
section
/-! DEFINITION. The seven commands, the command word's fields, the host's actions and the assembler's lines, as syntax. -/

namespace Sys2Proof

/-- The commands of the block (R2, R55), one constructor per row of the opcode table. A command names no register
and holds no immediate (R51, R53): its operands are on the ports, so no constructor has an argument. -/
inductive Instr where
  | adc    -- add-with-carry (R70)
  | sbb    -- subtract-with-borrow (R74)
  | mac    -- multiply-accumulate (R78)
  | mas    -- multiply-subtract-borrow (R81)
  | div    -- divide-double-by-single (R86)
  | brev   -- bit reversal, 64-bit integer type (R101)
  | brevx  -- bit reversal, platform-width index type (R102)
  deriving DecidableEq, Repr

/-- The two fields of a command word (R51): OPC in bits 7:0, RSV in bits 31:8. -/
structure CommandWord where
  rsv : BitVec 24
  opc : BitVec 8
  deriving DecidableEq, Repr

/-- Why a word is no command (R55, last row). -/
inductive Illegal where
  /-- w[31:8] is not 0. -/
  | reservedBits
  /-- w[31:8] is 0 and w[7:0] is 0x00 or 0x08 to 0xFF. -/
  | unassignedOpcode
  deriving DecidableEq, Repr

/-- What a word decodes to, `Command ⊕ Illegal` (R56). -/
inductive Decoded where
  | command (i : Instr)
  | illegal (why : Illegal)
  deriving DecidableEq, Repr

/-- The name of a host variable (R59). -/
abbrev HostVar := String

/-- An operand as the host writes it: "a 64-bit literal ... or the name of a host variable bound earlier" (R59). -/
inductive Operand where
  | lit (v : Word)
  | var (x : HostVar)
  deriving DecidableEq, Repr

/-- One action of the host (R50, R59, R157). -/
inductive HostAction where
  /-- The RESET event (R50, R140). -/
  | reset
  /-- The ISSUE event: the word `w` on CMD and four operand values on A to D (R50). -/
  | issue (w : CmdBits) (a b c d : Operand)
  /-- `READ n -> v`: read register `n` into a host variable (R50, R59). -/
  | read (n : BitVec 8) (dst : HostVar)
  /-- A write to register `n`, which the block ignores (R24). -/
  | write (n : BitVec 8) (v : Operand)
  /-- `-> dst0 [, dst1]`: bind host variables to OUT0 and OUT1, reading STATUS.VALID first (R59). -/
  | bind (dst0 : HostVar) (dst1 : Option HostVar)
  /-- `SHR v, k -> w`: a shift the host does itself (R59, R104). R59 gives a form to op1 to op4 alone and does not say
  what `v` and `k` may be: here `v` is an operand, a literal or a host variable, and `k` a number, never a host variable; DESIGN
  CHOICE, safe; log 14. -/
  | shr (v : Operand) (k : Nat) (dst : HostVar)
  deriving DecidableEq, Repr

/-- The pseudo-instructions (R60). -/
inductive Pseudo where
  | add
  | sub
  | mul
  | muladd
  | mulsub
  | div64
  deriving DecidableEq, Repr

/-- One line of an assembler listing (R59, R60). -/
inductive AsmLine where
  /-- A line that is blank or holds only a comment. -/
  | blank
  | command (m : Instr) (ops : List Operand) (dsts : List HostVar)
  | pseudo (p : Pseudo) (ops : List Operand) (dsts : List HostVar)
  | reset
  | read (n : BitVec 8) (dst : HostVar)
  | shr (v : Operand) (k : Nat) (dst : HostVar)
  deriving DecidableEq, Repr

end Sys2Proof
end

