-- ==== Sys2Proof/WellFormed.lean ====
section
/-! DEFINITION. Which terms of the syntax are well formed: command words (R51, R55), assembler lines (R59, R60) and
host programs that use only names bound earlier (R59). An `Instr` has no argument, so every one of them is well formed. -/

namespace Sys2Proof

/-- RSV "must be 0" (R51). -/
def CommandWord.reservedOk (c : CommandWord) : Bool := c.rsv == 0

/-- OPC is one of 0x01 to 0x07 (R55). -/
def CommandWord.opcodeOk (c : CommandWord) : Bool := 1 ≤ c.opc.toNat && c.opc.toNat ≤ 7

/-- A word that is one of the seven commands (R55). -/
def CommandWord.wf (c : CommandWord) : Bool := c.reservedOk && c.opcodeOk

/-- How many operands a command takes: "exactly as many operands as its row in rule R54 has used ports" (R59). -/
def Instr.arity : Instr → Nat
  | .adc => 3
  | .sbb => 3
  | .mac => 4
  | .mas => 4
  | .div => 3
  | .brev => 1
  | .brevx => 1

/-- How many operands a pseudo-instruction takes (R60). -/
def Pseudo.arity : Pseudo → Nat
  | .add => 2
  | .sub => 2
  | .mul => 2
  | .muladd => 3
  | .mulsub => 3
  | .div64 => 2

/-- A line has its operands' number and at most two destinations (R59). -/
def AsmLine.wf : AsmLine → Bool
  | .blank => true
  | .command m ops dsts => ops.length == m.arity && dsts.length ≤ 2
  | .pseudo p ops dsts => ops.length == p.arity && dsts.length ≤ 2
  | .reset => true
  | .read _ _ => true
  | .shr _ _ _ => true

/-- An operand that is a literal or a name bound earlier (R59). -/
def Operand.boundIn (names : List HostVar) : Operand → Bool
  | .lit _ => true
  | .var x => names.contains x

/-- The operands an action takes from the host (R59). -/
def HostAction.operands : HostAction → List Operand
  | .reset => []
  | .issue _ a b c d => [a, b, c, d]
  | .read _ _ => []
  | .write _ v => [v]
  | .bind _ _ => []
  | .shr v _ _ => [v]

/-- The names an action uses are all bound (R59). -/
def HostAction.usesBound (names : List HostVar) (act : HostAction) : Bool :=
  act.operands.all fun o => o.boundIn names

/-- The names an action binds (R59). -/
def HostAction.binds : HostAction → List HostVar
  | .reset => []
  | .issue _ _ _ _ _ => []
  | .read _ dst => [dst]
  | .write _ _ => []
  | .bind dst0 dst1 => dst0 :: dst1.toList
  | .shr _ _ dst => [dst]

/-- A host program in which every operand is a literal or "the name of a host variable bound earlier" (R59). -/
def programWf (names : List HostVar) : List HostAction → Bool
  | [] => true
  | act :: rest => act.usesBound names && programWf (act.binds ++ names) rest

end Sys2Proof
end

