-- ==== Sys2Proof/Decode.lean ====
section
/-! DEFINITION. Decoding a command word (R51, R55, R56), and after it the encoder (R55, R61). -/

namespace Sys2Proof

/-- The fields of a word: RSV is w[31:8], OPC is w[7:0] (R51). -/
def CommandWord.ofBits (w : CmdBits) : CommandWord :=
  { rsv := w.extractLsb' 8 24, opc := w.extractLsb' 0 8 }

/-- The word with these fields (R51). -/
def CommandWord.bits (c : CommandWord) : CmdBits := c.rsv ++ c.opc

/-- The command an OPC value stands for, by the map of R55. -/
def instrOfOpcode (opc : BitVec 8) : Option Instr :=
  match opc.toNat with
  | 0x01 => some .adc
  | 0x02 => some .sbb
  | 0x03 => some .mac
  | 0x04 => some .mas
  | 0x05 => some .div
  | 0x06 => some .brev
  | 0x07 => some .brevx
  | _ => none

/-- Decode, total on every word (R56): the reserved bits first, then OPC. -/
def decode (w : CmdBits) : Decoded :=
  let c := CommandWord.ofBits w
  if c.rsv = 0 then
    match instrOfOpcode c.opc with
    | some i => .command i
    | none => .illegal .unassignedOpcode
  else .illegal .reservedBits

/-- Decode an instruction given as the opcode table numbers its bits: the low `nbits` bits of `w`, the bits above them
zero. A command has one length, 32 bits (R52). -/
def decodeTableWord (nbits w : Nat) : Option Instr :=
  match decode (BitVec.ofNat 32 (w % 2 ^ nbits)) with
  | .command i => some i
  | .illegal _ => none

/-- The OPC value of a command (R54). -/
def opcode : Instr → BitVec 8
  | .adc => 0x01
  | .sbb => 0x02
  | .mac => 0x03
  | .mas => 0x04
  | .div => 0x05
  | .brev => 0x06
  | .brevx => 0x07

/-- The one command word of a command (R55, R61). -/
def encode (i : Instr) : CmdBits := CommandWord.bits { rsv := 0, opc := opcode i }

theorem decode_spec_adc : decode 0b00000000000000000000000000000001 = .command .adc := by decide
theorem decode_spec_sbb : decode 0b00000000000000000000000000000010 = .command .sbb := by decide
theorem decode_spec_mac : decode 0b00000000000000000000000000000011 = .command .mac := by decide
theorem decode_spec_mas : decode 0b00000000000000000000000000000100 = .command .mas := by decide
theorem decode_spec_div : decode 0b00000000000000000000000000000101 = .command .div := by decide
theorem decode_spec_brev : decode 0b00000000000000000000000000000110 = .command .brev := by decide
theorem decode_spec_brevx : decode 0b00000000000000000000000000000111 = .command .brevx := by decide

end Sys2Proof
end

