-- ==== Sys2Proof/Config.lean ====
section
/-! DEFINITION. What is fixed for a block and left open by the spec. CHECKED and INDEX_BITS are readable in the CONFIG
register and stand in State, where no step writes them, so that a claim holds for every build. -/

namespace Sys2Proof

/-- `DivZeroResult(lo, hi)`, the (quotient, remainder) that DIV writes when its divisor is zero in a release build (R12,
R89): any function of (lo, hi), with no body, so that no proof can see a value of it (DESIGN CHOICE, safe as to the value).
The spec does not say whether blocks side by side, or builds, may differ in it (R35 and R36 give each instance its own
configuration): here ONE function stands for all of them, DESIGN CHOICE, unsafe for a claim that compares two blocks; log 6. -/
opaque Config.divZeroResult (lo hi : Word) : Word × Word

/-- One less than `LATENCY`, open (R13). -/
opaque Config.latencyLessOne : Nat

/-- `LATENCY`, "at least 1", the cycles of every command whatever its operands (R13, R155). No rule of the model depends on
it. DESIGN CHOICE, safe; log 7. -/
def Config.latency : Nat := Config.latencyLessOne + 1

/-- The block's identity string (R3). -/
def Config.identity : String := "OZKP-CORE-v7"

end Sys2Proof
end

