-- ==== Sys2Proof/Machine/State.lean ====
section
/-! DEFINITION. The state of the machine: the block's record (R36), its build (R27), the interface lines (R50) and the host
(R157); the reasons a step can stop; the state after reset (R37). -/

namespace Sys2Proof.Machine

/-- The causes of a block fault (R110). Code 0 is "no fault recorded"; codes 7 to 15 are never recorded. -/
inductive Cause where
  | illegalCommand  -- 1
  | carryRange      -- 2
  | borrowRange     -- 3
  | divZero         -- 4
  | divOverflow     -- 5
  | indexWidth      -- 6
  deriving DecidableEq, Repr

/-- What a command's computation gives (R16): `ok (v0, v1)` for OUT0 and OUT1, or `fault cause`. -/
inductive CmdResult where
  | ok (v0 v1 : Word)
  | fault (c : Cause)
  deriving DecidableEq, Repr

/-- Plain data. Operand ports are inputs that the host drives, not registers of the block (R20). -/
structure State where
  /-- OUT0, register 0; `none`: no value (R25, R36, R37). -/
  out0 : Option Word
  /-- OUT1, register 1; `none`: no value (R25, R36, R37). -/
  out1 : Option Word
  /-- STATUS.VALID (R28). -/
  valid : Bool
  /-- STATUS.FAULT, sticky: the block is halted (R29, R120). -/
  fault : Bool
  /-- STATUS.CAUSE (R30). -/
  cause : BitVec 4
  /-- STATUS.FCMD (R31). -/
  fcmd : CmdBits
  /-- Parameter CHECKED: true is the debug build (R10, R27). -/
  checked : Bool
  /-- Parameter INDEX_BITS, 1 to 255 (R11, R27). -/
  indexBits : BitVec 8
  /-- The CMD port (R50). -/
  cmd : CmdBits
  /-- Operand port A (R50). -/
  portA : Word
  /-- Operand port B (R50). -/
  portB : Word
  /-- Operand port C (R50). -/
  portC : Word
  /-- Operand port D (R50). -/
  portD : Word
  /-- The REGNUM port (R50). -/
  regnum : BitVec 8
  /-- The host's actions still to be performed, the next one first (R157). -/
  program : List HostAction
  /-- The host's variables and their values (R59). -/
  vars : List (HostVar × Word)
  /-- The register numbers and values the host has read, in order (R157). -/
  observed : List (BitVec 8 × Word)
  /-- A binding met VALID = 0, "a host error" (R59, R157). -/
  bindError : Bool
  deriving DecidableEq, Repr

/-- Where the HOST's program is at fault and the model gives the action no meaning. A fault of the BLOCK is not here: it is a
next state with STATUS.FAULT set (R117). -/
inductive Fault where
  /-- Raised by a READ of OUT0 or OUT1 while VALID = 0: "the host's read is a fault of the host program, never a number" (R32,
  U5). Safe. -/
  | readWithoutValue
  /-- Raised by an action whose operand names a variable that holds no value (R59 wants one "bound earlier"). Safe. -/
  | unboundVariable
  deriving DecidableEq, Repr

/-- Why a step has no meaning. -/
inductive Refusal where
  /-- Raised by an arm of `exec` for an instruction without a meaning; no arm does. Safe. -/
  | notModelled (mnemonic : String)
  deriving DecidableEq, Repr

/-- The block of a given build right after reset (R37), its lines at zero and its host with nothing to do (logs 3, 19). -/
def State.resetOf (checked : Bool) (indexBits : BitVec 8) : State :=
  { out0 := none, out1 := none, valid := false, fault := false, cause := 0, fcmd := 0
    checked := checked, indexBits := indexBits
    cmd := 0, portA := 0, portB := 0, portC := 0, portD := 0, regnum := 0
    program := [], vars := [], observed := [], bindError := false }

/-- The machine right after reset (R37). The spec leaves the build open: CHECKED = true and INDEX_BITS = 64 here, DESIGN CHOICE,
unsafe for a claim that rests on it; log 5. -/
def State.reset : State := State.resetOf true 64

end Sys2Proof.Machine
end

