-- ==== Sys2Proof/Machine/Flags.lean ====
section
/-! DEFINITION. The block has no flags (R22): what other machines keep in flags are here the fields of STATUS (R26) and CONFIG
(R27), the cause codes (R110) and the range check on a carry or borrow input. -/

namespace Sys2Proof.Machine

/-- The cause codes written into STATUS.CAUSE (R110). -/
def causeCode : Cause → BitVec 4
  | .illegalCommand => 1
  | .carryRange => 2
  | .borrowRange => 3
  | .divZero => 4
  | .divOverflow => 5
  | .indexWidth => 6

/-- STATUS as a 64-bit value: `fcmd :: zext_24(0) :: cause :: 0b00 :: fault :: valid` (R36, R26). -/
def statusWord (s : State) : Word :=
  s.fcmd ++ (0 : BitVec 24) ++ s.cause ++ (0 : BitVec 2) ++ BitVec.ofBool s.fault ++ BitVec.ofBool s.valid

/-- CONFIG as a 64-bit value: CHECKED in bit 0, INDEX_BITS in bits 15:8, the others 0 (R27). -/
def configWord (s : State) : Word :=
  (0 : BitVec 48) ++ s.indexBits ++ (0 : BitVec 7) ++ BitVec.ofBool s.checked

/-- A carry or borrow input outside {0, 1} (R110, causes 2 and 3). -/
def outsideBit (v : Word) : Bool := 1 < v

end Sys2Proof.Machine
end

