-- ==== Sys2Proof/Machine/Operands.lean ====
section
/-! DEFINITION. Operands: whole 64-bit values on the ports, used as they are (R53, R54); and where the host takes the values
from that it puts there, literals and its own variables (R59). -/

namespace Sys2Proof.Machine

/-- The lines as the host drives them for one command: the word on CMD, the operands on A to D (R50). -/
def State.drive (s : State) (w : CmdBits) (a b c d : Word) : State :=
  { s with cmd := w, portA := a, portB := b, portC := c, portD := d }

/-- The value of a host variable, if it has one. -/
def lookupVar (x : HostVar) : List (HostVar × Word) → Option Word
  | [] => none
  | (y, v) :: rest => if x = y then some v else lookupVar x rest

/-- The host's variables after `x` is bound to `v`: in its old place if it was bound, else last. -/
def bindVar (x : HostVar) (v : Word) : List (HostVar × Word) → List (HostVar × Word)
  | [] => [(x, v)]
  | (y, u) :: rest => if x = y then (x, v) :: rest else (y, u) :: bindVar x v rest

/-- The value of an operand as the host writes it (R59). -/
def State.operand (s : State) : Operand → Option Word
  | .lit v => some v
  | .var x => lookupVar x s.vars

/-- The state after the host binds `x` to `v` (R59). -/
def State.setVar (s : State) (x : HostVar) (v : Word) : State :=
  { s with vars := bindVar x v s.vars }

end Sys2Proof.Machine
end

