-- ==== Sys2Proof/Machine/Ops.lean ====
section
/-! DEFINITION. The shared operations: limbs of the accumulator, completing a command, taking a fault, the common step of every
command (R66), reset (R140) and the host's reads and writes of registers (R24). -/

namespace Sys2Proof.Machine

/-! ### Limbs and the accumulator (R9, R14, R15) -/

/-- `zext_128` (R15). -/
def wide (x : Word) : DWord := x.setWidth 128

/-- Bits 63:0 of the accumulator. -/
def lowLimb (x : DWord) : Word := x.extractLsb' 0 64

/-- Bits 127:64 of the accumulator. -/
def highLimb (x : DWord) : Word := x.extractLsb' 64 64

/-- The borrow count of a wide subtraction, `neg_64(W[127:64])` (R74, R76, R81, R82). -/
def borrowCount (w : DWord) : Word := -(highLimb w)

/-- Byte `q` of the reversal of `x`: its bit `i` is bit `8q + i` of the result, that is bit `63 − (8q + i)` of `x` (R100). -/
def revByte (x : Word) (q : Nat) : BitVec 8 := BitVec.ofFnLE fun i : Fin 8 => x.getLsbD (63 - (8 * q + i))

/-- The 64-bit reversal: bit `i` of the result is bit `63 − i` of `x` (R100). -/
def rev64 (x : Word) : Word :=
  revByte x 7 ++ revByte x 6 ++ revByte x 5 ++ revByte x 4 ++ revByte x 3 ++ revByte x 2 ++ revByte x 1 ++ revByte x 0

/-! ### Completing, and taking a fault -/

/-- A command completes: OUT0, OUT1 and STATUS.VALID are written and nothing else (R66, R25, R28). -/
def State.complete (s : State) (v0 v1 : Word) : State :=
  { s with out0 := some v0, out1 := some v1, valid := true }

/-- Fault entry (R117): VALID, FAULT, CAUSE and FCMD are written; OUT0 and OUT1 stay; nothing else is saved and control goes
nowhere (R118). -/
def State.enterFault (s : State) (c : Cause) (w : CmdBits) : State :=
  { s with valid := false, fault := true, cause := causeCode c, fcmd := w }

/-- The RESET event (R140, R37): "the only event that clears STATUS.FAULT and leaves the halted state". It stands in the place of
a return from a fault, of which there is none (R121). CONFIG is unchanged. -/
def State.resetBlock (s : State) : State :=
  { s with out0 := none, out1 := none, valid := false, fault := false, cause := 0, fcmd := 0 }

/-- The common command step (R66) for the command word `w` with the result `r`: ignored while the block is halted (R120), else
completed or faulted. -/
def State.perform (s : State) (w : CmdBits) (r : CmdResult) : Host.Outcome State Fault Refusal :=
  if s.fault then .next s
  else
    match r with
    | .ok v0 v1 => .next (s.complete v0 v1)
    | .fault c => .next (s.enterFault c w)

/-! ### The host's view of the registers (R24) -/

/-- What a read of register `n` gives (R24); OUT0 and OUT1 have no value while VALID = 0 (R32). -/
def State.readReg (s : State) (n : BitVec 8) : Option Word :=
  match n.toNat with
  | 0 => if s.valid then s.out0 else none
  | 1 => if s.valid then s.out1 else none
  | 2 => some (statusWord s)
  | 3 => some (configWord s)
  | _ => some 0

/-- RDATA: the value of the register on REGNUM (R50). -/
def State.rdata (s : State) : Option Word := s.readReg s.regnum

/-- The host puts `n` on REGNUM (R50). -/
def State.setRegnum (s : State) (n : BitVec 8) : State := { s with regnum := n }

/-- A host write: "ignored and has no side effect" for every register number (R24). -/
def State.writeReg (s : State) (_ : BitVec 8) (_ : Word) : State := s

/-- The host notes a value it has read (R157). -/
def State.observe (s : State) (n : BitVec 8) (v : Word) : State :=
  { s with observed := s.observed ++ [(n, v)] }

/-- The host has met VALID = 0 when it wanted to bind a result (R59). -/
def State.flagBindError (s : State) : State := { s with bindError := true }

/-- What is left of the host's program (R157). -/
def State.withProgram (s : State) (p : List HostAction) : State := { s with program := p }

end Sys2Proof.Machine
end

