-- ==== Sys2Proof/Machine/BitReversal.lean ====
section
/-! DEFINITION. The bit-reversal commands BREV and BREVX (41_bit_reversal.md). -/

namespace Sys2Proof.Machine

/-- bit-reverse on the 64-bit unsigned integer type (R101). -/
def brevResult (x : Word) : CmdResult := .ok (rev64 x) 0

/-- bit-reverse on the platform-width index type: not offered unless INDEX_BITS = 64, in either build (R102). -/
def brevxResult (indexBits : BitVec 8) (x : Word) : CmdResult :=
  if indexBits ≠ 64 then .fault .indexWidth else .ok (rev64 x) 0

/-- BREV: A = x; B, C, D ignored (R101). -/
def execBrev (s : State) : Host.Outcome State Fault Refusal :=
  s.perform (encode .brev) (brevResult s.portA)

/-- BREVX: A = x; B, C, D ignored (R102). -/
def execBrevx (s : State) : Host.Outcome State Fault Refusal :=
  s.perform (encode .brevx) (brevxResult s.indexBits s.portA)

/-- The host's reduction of a reversed index to a domain of size 2^k: `rev_64(i) >> (64 − k)` (R104), 0 for k = 0 (R149). -/
def reducedIndex (k : Nat) (i : Word) : Word := rev64 i >>> (64 - k)

end Sys2Proof.Machine
end

