-- ==== Sys2Proof/Machine/LimbArithmetic.lean ====
section
/-! DEFINITION. The limb commands ADC, SBB, MAC, MAS and DIV (40_limb_arithmetic.md). For each, its `exec` of the spec as a
function of the build and the operands, and its meaning on the state. -/

namespace Sys2Proof.Machine

/-- add-with-carry (R70, R73). -/
def adcResult (checked : Bool) (a b carryIn : Word) : CmdResult :=
  if checked && outsideBit carryIn then .fault .carryRange
  else
    let sum := wide a + wide b + wide carryIn
    .ok (lowLimb sum) (highLimb sum)

/-- subtract-with-borrow (R74, R77). -/
def sbbResult (checked : Bool) (a b borrowIn : Word) : CmdResult :=
  if checked && outsideBit borrowIn then .fault .borrowRange
  else
    let diff := wide a - (wide b + wide borrowIn)
    .ok (lowLimb diff) (borrowCount diff)

/-- multiply-accumulate (R78); any carry is in range (R80). -/
def macResult (a b c carryIn : Word) : CmdResult :=
  let sum := wide a + wide b * wide c + wide carryIn
  .ok (lowLimb sum) (highLimb sum)

/-- multiply-subtract-borrow (R81, R84). -/
def masResult (checked : Bool) (a b c borrowIn : Word) : CmdResult :=
  if checked && outsideBit borrowIn then .fault .borrowRange
  else
    let diff := wide a - (wide b * wide c + wide borrowIn)
    .ok (lowLimb diff) (borrowCount diff)

/-- divide-double-by-single (R86, R88, R89). -/
def divResult (checked : Bool) (lo hi divisor : Word) : CmdResult :=
  if divisor = 0 then
    if checked then .fault .divZero
    else .ok (Config.divZeroResult lo hi).1 (Config.divZeroResult lo hi).2
  else if checked && divisor ≤ hi then .fault .divOverflow
  else
    let dividend : DWord := hi ++ lo
    .ok (lowLimb (dividend / wide divisor)) (lowLimb (dividend % wide divisor))

/-- ADC: A = a, B = b, C = carry_in; D ignored (R70). -/
def execAdc (s : State) : Host.Outcome State Fault Refusal :=
  s.perform (encode .adc) (adcResult s.checked s.portA s.portB s.portC)

/-- SBB: A = a, B = b, C = borrow_in; D ignored (R74). -/
def execSbb (s : State) : Host.Outcome State Fault Refusal :=
  s.perform (encode .sbb) (sbbResult s.checked s.portA s.portB s.portC)

/-- MAC: A = a, B = b, C = c, D = carry_in (R78). -/
def execMac (s : State) : Host.Outcome State Fault Refusal :=
  s.perform (encode .mac) (macResult s.portA s.portB s.portC s.portD)

/-- MAS: A = a, B = b, C = c, D = borrow_in (R81). -/
def execMas (s : State) : Host.Outcome State Fault Refusal :=
  s.perform (encode .mas) (masResult s.checked s.portA s.portB s.portC s.portD)

/-- DIV: A = lo, B = hi, C = divisor; D ignored (R86). -/
def execDiv (s : State) : Host.Outcome State Fault Refusal :=
  s.perform (encode .div) (divResult s.checked s.portA s.portB s.portC)

end Sys2Proof.Machine
end

