-- ==== Sys2Proof/Machine/Dispatch.lean ====
section
/-! DEFINITION. The meaning of each command: one arm per constructor of Instr. -/

namespace Sys2Proof.Machine

def exec (i : Instr) (s : State) : Host.Outcome State Fault Refusal :=
  match i with
  | .adc => Sys2Proof.Machine.execAdc s
  | .sbb => Sys2Proof.Machine.execSbb s
  | .mac => Sys2Proof.Machine.execMac s
  | .mas => Sys2Proof.Machine.execMas s
  | .div => Sys2Proof.Machine.execDiv s
  | .brev => Sys2Proof.Machine.execBrev s
  | .brevx => Sys2Proof.Machine.execBrevx s

end Sys2Proof.Machine
end

