-- ==== Sys2Proof/Machine/HostActions.lean ====
section
/-! DEFINITION. What each action of the host does: the events issue, read and reset of the interface (R50), the ignored write
(R24), and the host's own bookkeeping in a listing, binding and shifting (R59). -/

namespace Sys2Proof.Machine

/-- The block performs the command on its lines (R66): decode CMD, then the command's meaning; an illegal word faults with
ILLEGAL_COMMAND in both builds, no operand examined (R57, R114), unless the block is halted (R120). -/
def issueCommand (s : State) : Host.Outcome State Fault Refusal :=
  match decode s.cmd with
  | .command i => exec i s
  | .illegal _ => s.perform s.cmd (.fault .illegalCommand)

/-- ISSUE: the host drives the lines and the block performs the command (R50). -/
def runIssue (w : CmdBits) (a b c d : Operand) (s : State) : Host.Outcome State Fault Refusal :=
  match s.operand a, s.operand b, s.operand c, s.operand d with
  | some va, some vb, some vc, some vd => issueCommand (s.drive w va vb vc vd)
  | _, _, _, _ => .fault .unboundVariable

/-- RESET (R140). -/
def runReset (s : State) : Host.Outcome State Fault Refusal := .next s.resetBlock

/-- `READ n -> v` (R59): the host drives REGNUM and takes RDATA; a read without a value is the host program's fault (R32). -/
def runRead (n : BitVec 8) (dst : HostVar) (s : State) : Host.Outcome State Fault Refusal :=
  match (s.setRegnum n).rdata with
  | some v => .next (((s.setRegnum n).observe n v).setVar dst v)
  | none => .fault .readWithoutValue

/-- A host write of any register changes nothing (R24). -/
def runWrite (n : BitVec 8) (v : Operand) (s : State) : Host.Outcome State Fault Refusal :=
  match s.operand v with
  | some x => .next (s.writeReg n x)
  | none => .fault .unboundVariable

/-- Bind one host variable to register `n`, or note the host error if the register has no value (R59). -/
def State.bindReg (s : State) (n : BitVec 8) (dst : HostVar) : State :=
  match (s.setRegnum n).rdata with
  | some v => ((s.setRegnum n).observe n v).setVar dst v
  | none => s.flagBindError

/-- `-> dst0 [, dst1]` (R59): "Binding reads STATUS.VALID first and is a host error if it is 0". The run goes on after such an
error, as listing P7 of 95_test_vectors.md does; log 11. -/
def runBind (dst0 : HostVar) (dst1 : Option HostVar) (s : State) : Host.Outcome State Fault Refusal :=
  let s1 := (s.setRegnum 2).observe 2 (statusWord s)
  let s2 := s1.bindReg 0 dst0
  match dst1 with
  | some x => .next (s2.bindReg 1 x)
  | none => .next s2

/-- `SHR v, k -> w`, a host shift (R59); a shift by 64 or more gives 0 (R149). -/
def runShr (v : Operand) (k : Nat) (dst : HostVar) (s : State) : Host.Outcome State Fault Refusal :=
  match s.operand v with
  | some x => .next (s.setVar dst (x >>> k))
  | none => .fault .unboundVariable

/-- One action of the host. -/
def runAction (act : HostAction) (s : State) : Host.Outcome State Fault Refusal :=
  match act with
  | .reset => runReset s
  | .issue w a b c d => runIssue w a b c d s
  | .read n dst => runRead n dst s
  | .write n v => runWrite n v s
  | .bind dst0 dst1 => runBind dst0 dst1 s
  | .shr v k dst => runShr v k dst s

/-- The action at the head of the host's program is performed and taken from it (R46, R157); with no action left the block is
idle and holds its state (R129). -/
def runNext (s : State) : Host.Outcome State Fault Refusal :=
  match s.program with
  | [] => .next s
  | act :: rest => runAction act (s.withProgram rest)

/-- `s` with a host about to issue the command word `w`, the operands those its lines carry now. -/
def State.placeIssue (s : State) (w : CmdBits) : State :=
  s.withProgram
    (.issue w (.lit s.portA) (.lit s.portB) (.lit s.portC) (.lit s.portD) :: s.program)

end Sys2Proof.Machine
end

