-- ==== Sys2Proof/Machine/Step.lean ====
section
/-! DEFINITION. One step of the machine: the host's next action. -/

namespace Sys2Proof.Machine

/-- One step: the host's next action, atomically (R17, R46). -/
def step (s : State) : Host.Outcome State Fault Refusal := runNext s

/-- `s` with the instruction whose bits are `w` (its low `nbits` bits, the bits above them zero) as the command the host issues
next. The block fetches nothing (R21): the host's program stands for the listing that a user gives it; log 2. -/
def State.withFetchWord (s : State) (nbits w : Nat) : State :=
  s.placeIssue (BitVec.ofNat 32 (w % 2 ^ nbits))

end Sys2Proof.Machine
end

