-- ==== Sys2Proof/Machine/Instances.lean ====
section
/-! DEFINITION. Several blocks side by side, each with its own state and its own host (R35, R127); log 17. -/

namespace Sys2Proof.Machine

/-- One step of instance `k`. DESIGN CHOICE, safe; log 17: the spec does not say what becomes of the others when the host of one
instance stops; here that stop is the outcome for the whole list. A `k` that names no instance changes nothing. -/
def stepInstance (k : Nat) (blocks : List State) : Host.Outcome (List State) Fault Refusal :=
  match blocks[k]? with
  | none => .next blocks
  | some s =>
    match step s with
    | .next t => .next (blocks.set k t)
    | .fault r => .fault r
    | .refused r => .refused r

end Sys2Proof.Machine
end

