-- ==== Sys2Proof/Machine/Assembler.lean ====
section
/-! DEFINITION. What a line of a listing stands for: the host's actions (R59), the pseudo-instructions first expanded to one
command each (R60). -/

namespace Sys2Proof.Machine

/-- A pseudo-instruction's one command and that command's operands (R60). -/
def expandPseudo (p : Pseudo) (ops : List Operand) : Option (Instr × List Operand) :=
  match p, ops with
  | .add, [a, b] => some (.adc, [a, b, .lit 0])
  | .sub, [a, b] => some (.sbb, [a, b, .lit 0])
  | .mul, [b, c] => some (.mac, [.lit 0, b, c, .lit 0])
  | .muladd, [a, b, c] => some (.mac, [a, b, c, .lit 0])
  | .mulsub, [a, b, c] => some (.mas, [a, b, c, .lit 0])
  | .div64, [n, d] => some (.div, [n, .lit 0, d])
  | _, _ => none

/-- The ISSUE of a command: its operands on A to D in their order, "ignored ports are driven 0" (R59). -/
def issueOf (m : Instr) (ops : List Operand) : HostAction :=
  .issue (encode m) (ops.getD 0 (.lit 0)) (ops.getD 1 (.lit 0)) (ops.getD 2 (.lit 0)) (ops.getD 3 (.lit 0))

/-- The binding `-> dst0 [, dst1]` of a line (R59). -/
def bindOf : List HostVar → List HostAction
  | [] => []
  | x :: rest => [.bind x rest.head?]

/-- The host's actions for one line; none for a line that is not well formed (R59). -/
def assembleLine (line : AsmLine) : Option (List HostAction) :=
  if line.wf then
    match line with
    | .blank => some []
    | .command m ops dsts => some (issueOf m ops :: bindOf dsts)
    | .pseudo p ops dsts =>
      match expandPseudo p ops with
      | some (m, full) => some (issueOf m full :: bindOf dsts)
      | none => none
    | .reset => some [.reset]
    | .read n dst => some [.read n dst]
    | .shr v k dst => some [.shr v k dst]
  else none

/-- The host's actions for a listing, line by line. -/
def assemble : List AsmLine → Option (List HostAction)
  | [] => some []
  | line :: rest =>
    match assembleLine line, assemble rest with
    | some here, some more => some (here ++ more)
    | _, _ => none

end Sys2Proof.Machine
end

