-- ==== Sys2Proof/Machine/Chains.lean ====
section
/-! DEFINITION. The host's compositions of commands on multi-limb integers: carry and borrow chains (R93, R146), division by one
limb (R147) and schoolbook multiplication (R150). Each issues commands to one block and reads OUT0 and OUT1 after each, before
the next (R145). Limbs are listed least significant first (R19). -/

namespace Sys2Proof.Machine

/-- The natural a limb list stands for, least significant limb first (R19, R43). -/
def limbsValue : List Word → Nat
  | [] => 0
  | x :: rest => x.toNat + 2 ^ 64 * limbsValue rest

/-- OUT0 and OUT1 as the host takes them: both vouched for by STATUS.VALID (R32, R145). -/
def State.results (s : State) : Option (Word × Word) :=
  match s.readReg 0, s.readReg 1 with
  | some v0, some v1 => some (v0, v1)
  | _, _ => none

/-- The source's function call on the block: issue one command, then read both results (R54, R145). -/
def call (i : Instr) (a b c d : Word) (s : State) : Option (Word × Word × State) :=
  match exec i (s.drive (encode i) a b c d) with
  | .next t =>
    match t.results with
    | some (v0, v1) => some (v0, v1, t)
    | none => none
  | .fault _ => none
  | .refused _ => none

/-- A carry or borrow chain over pairs of limbs, least significant first: each command's OUT1 is the next one's carry or borrow
(R146). Answers the result limbs, the last carry or borrow, and the block after. -/
def carryChain (i : Instr) (carry : Word) (s : State) : List (Word × Word) → Option (List Word × Word × State)
  | [] => some ([], carry, s)
  | (x, y) :: rest =>
    match call i x y carry 0 s with
    | none => none
    | some (v, carryOut, t) =>
      match carryChain i carryOut t rest with
      | none => none
      | some (vs, last, u) => some (v :: vs, last, u)

/-- Division of a limb list by one limb, "from most-significant to least-significant", the remainder of each DIV the `hi` of
the next, the first 0 (R147). Answers the quotient limbs, the remainder, and the block after. -/
def divChain (d : Word) (s : State) : List Word → Option (List Word × Word × State)
  | [] => some ([], 0, s)
  | x :: rest =>
    match divChain d s rest with
    | none => none
    | some (qs, r, t) =>
      match call .div x r d 0 t with
      | none => none
      | some (q, r', u) => some (q :: qs, r', u)

/-- One row of the schoolbook loop (R150): over the product's limbs from p[i] on, (p[i+j], carry) := MAC(p[i+j], x, y[j], carry)
for each j, then p[i+N] := carry. -/
def mulRow (x carry : Word) (s : State) : (ps ys : List Word) → Option (List Word × State)
  | [], _ => some ([], s)
  | _ :: ps, [] => some (carry :: ps, s)
  | p :: ps, y :: ys =>
    match call .mac p x y carry s with
    | none => none
    | some (v, carryOut, t) =>
      match mulRow x carryOut t ps ys with
      | none => none
      | some (vs, u) => some (v :: vs, u)

/-- The rows of the schoolbook loop (R150), the product's limbs from p[i] on given to row i. -/
def mulRows (ys : List Word) (s : State) : (ps xs : List Word) → Option (List Word × State)
  | ps, [] => some (ps, s)
  | ps, x :: xs =>
    match mulRow x 0 s ps ys with
    | none => none
    | some ([], t) => some ([], t)
    | some (p :: rest, t) =>
      match mulRows ys t rest xs with
      | none => none
      | some (out, u) => some (p :: out, u)

/-- Schoolbook multiplication (R150): product limbs "initially 0". -/
def schoolbook (xs ys : List Word) (s : State) : Option (List Word × State) :=
  mulRows ys s (List.replicate (xs.length + ys.length) 0) xs

end Sys2Proof.Machine
end

