-- ==== Sys2Proof/Safety.lean ====
section
/-! DEFINITION. What claims speak of: the legal states of the block (R26), what a fault records (R110), and a host's run, its
observation and when it is good (R157). -/

namespace Sys2Proof.Machine

/-- Legal STATUS values (R26). -/
abbrev State.LegalStatus (s : State) : Prop :=
  (s.fault = false → s.cause = 0 ∧ s.fcmd = 0) ∧
  (s.fault = true → s.valid = false ∧ 1 ≤ s.cause.toNat ∧ s.cause.toNat ≤ 6)

/-- OUT0 and OUT1 are written together, and hold values when VALID = 1 (R25, R26). -/
abbrev State.ResultsTogether (s : State) : Prop :=
  s.out0.isSome = s.out1.isSome ∧ (s.valid = true → s.out0.isSome = true)

/-- The build is one of R11's. -/
abbrev State.LegalBuild (s : State) : Prop := s.indexBits ≠ 0

/-- The recorded fault is one that the recorded word can raise on this build (R110, R112). -/
abbrev State.FaultExplained (s : State) : Prop :=
  s.fault = true →
    ((∃ why, s.cause = causeCode .illegalCommand ∧ decode s.fcmd = .illegal why) ∨
      (s.cause = causeCode .carryRange ∧ s.fcmd = encode .adc ∧ s.checked = true) ∨
      (s.cause = causeCode .borrowRange ∧ (s.fcmd = encode .sbb ∨ s.fcmd = encode .mas) ∧ s.checked = true) ∨
      (s.cause = causeCode .divZero ∧ s.fcmd = encode .div ∧ s.checked = true) ∨
      (s.cause = causeCode .divOverflow ∧ s.fcmd = encode .div ∧ s.checked = true) ∨
      (s.cause = causeCode .indexWidth ∧ s.fcmd = encode .brevx ∧ s.indexBits ≠ 64))

/-- The invariant of the block: R26's legal states, with what R25, R11 and R110 add. -/
structure State.Inv (s : State) : Prop where
  legalStatus : s.LegalStatus
  resultsTogether : s.ResultsTogether
  legalBuild : s.LegalBuild
  faultExplained : s.FaultExplained

/-- The block's own registers and build, without the lines and the host (R24, R36). -/
abbrev State.SameBlock (s t : State) : Prop :=
  t.out0 = s.out0 ∧ t.out1 = s.out1 ∧ t.valid = s.valid ∧ t.fault = s.fault ∧ t.cause = s.cause ∧ t.fcmd = s.fcmd ∧
  t.checked = s.checked ∧ t.indexBits = s.indexBits

/-- The build, the lines and the host: what no command writes (R22, R27). -/
abbrev State.SameOutside (s t : State) : Prop :=
  t.checked = s.checked ∧ t.indexBits = s.indexBits ∧ t.cmd = s.cmd ∧ t.portA = s.portA ∧ t.portB = s.portB ∧
  t.portC = s.portC ∧ t.portD = s.portD ∧ t.regnum = s.regnum ∧ t.program = s.program ∧ t.vars = s.vars ∧
  t.observed = s.observed ∧ t.bindError = s.bindError

/-- A command completed with these results: OUT0, OUT1 and VALID written, nothing else (R66). -/
abbrev State.CompletedFrom (s t : State) (v0 v1 : Word) : Prop :=
  t.out0 = some v0 ∧ t.out1 = some v1 ∧ t.valid = true ∧ t.fault = s.fault ∧ t.cause = s.cause ∧ t.fcmd = s.fcmd ∧
  s.SameOutside t

/-- A command faulted with this cause code and word: STATUS written, nothing else (R116, R117). -/
abbrev State.FaultedFrom (s t : State) (code : BitVec 4) (w : CmdBits) : Prop :=
  t.out0 = s.out0 ∧ t.out1 = s.out1 ∧ t.valid = false ∧ t.fault = true ∧ t.cause = code ∧ t.fcmd = w ∧ s.SameOutside t

/-- The start of a run: a block of some build after reset, its host with a program to perform (R157). -/
def startOf (checked : Bool) (indexBits : BitVec 8) (p : List HostAction) : State :=
  (State.resetOf checked indexBits).withProgram p

/-- The host has performed its last action (R157). -/
abbrev State.Finished (s : State) : Prop := s.program = []

/-- A run's observation: "the values the host read, in order, and the final STATUS" (R157). -/
def State.observation (s : State) : List (BitVec 8 × Word) × Word := (s.observed, statusWord s)

/-- A good run's end: FAULT = 0 and every binding met VALID = 1 (R157). -/
abbrev State.Good (s : State) : Prop := s.fault = false ∧ s.bindError = false

end Sys2Proof.Machine
end

