-- ==== Sys2Proof/Certificates/Slice0/Obligations.lean ====
section
/-! DEFINITION. The statements for the provers. Each is about OZKP-CORE's rules, none about a program. -/

open Sys2Proof Sys2Proof.Machine

/-! ### Encoding -/

/-- R61: the seven pattern strings, bit 31 first, each the word of its command and read as that command. -/
def Obligations.SpecPatternsDecode : Prop :=
  (encode .adc = 0b00000000000000000000000000000001 ∧ decode 0b00000000000000000000000000000001 = .command .adc) ∧
  (encode .sbb = 0b00000000000000000000000000000010 ∧ decode 0b00000000000000000000000000000010 = .command .sbb) ∧
  (encode .mac = 0b00000000000000000000000000000011 ∧ decode 0b00000000000000000000000000000011 = .command .mac) ∧
  (encode .mas = 0b00000000000000000000000000000100 ∧ decode 0b00000000000000000000000000000100 = .command .mas) ∧
  (encode .div = 0b00000000000000000000000000000101 ∧ decode 0b00000000000000000000000000000101 = .command .div) ∧
  (encode .brev = 0b00000000000000000000000000000110 ∧ decode 0b00000000000000000000000000000110 = .command .brev) ∧
  (encode .brevx = 0b00000000000000000000000000000111 ∧ decode 0b00000000000000000000000000000111 = .command .brevx)

/-- R55 and R56 over all 2^32 words: a word is read as a command exactly when it is that command's one word, so decode of
encode is the command and no other word reads as it; every other word is illegal, for its reserved bits first and else for
its OPC. -/
def Obligations.DecodeExactlyInvertsEncode : Prop :=
  ∀ w : CmdBits,
    (∀ i : Instr, decode w = .command i ↔ w = encode i) ∧
    (decode w = .illegal .reservedBits ↔ w.extractLsb' 8 24 ≠ 0) ∧
    (decode w = .illegal .unassignedOpcode ↔
      w.extractLsb' 8 24 = 0 ∧ (w.extractLsb' 0 8 = 0 ∨ 0x08 ≤ (w.extractLsb' 0 8).toNat))

/-- A placed instruction runs next: `step` on the word placed by `withFetchWord` is `exec` of the command, its word on CMD
and the operand ports as they were. -/
def Obligations.PlacedWordRunsNext : Prop :=
  ∀ (s : State) (i : Instr),
    decodeTableWord 32 (encode i).toNat = some i ∧
    step (s.withFetchWord 32 (encode i).toNat) = exec i { s with cmd := encode i }

/-- A line of the listing syntax that is a command with its right number of operands becomes one ISSUE with the operands on
A, B, C, D in order and 0 on the ignored ports, and then at most one binding (R59). -/
def Obligations.CommandLineAssembles : Prop :=
  ∀ (m : Instr) (ops : List Operand) (dsts : List HostVar),
    ops.length = m.arity → dsts.length ≤ 2 →
    ∃ a b c d : Operand,
      assembleLine (.command m ops dsts) = some (.issue (encode m) a b c d :: bindOf dsts) ∧
      [a, b, c, d] = ops ++ List.replicate (4 - m.arity) (.lit 0)

/-! ### The common step -/

/-- When the word the host issues next decodes to a command, one step is `exec` of it, on the state with that action taken
from the host's program and the word and operands on the lines (R66, R50). -/
def Obligations.StepRunsDecoded : Prop :=
  ∀ (s : State) (w : CmdBits) (oa ob oc od : Operand) (rest : List HostAction) (a b c d : Word) (i : Instr),
    s.program = .issue w oa ob oc od :: rest →
    s.operand oa = some a → s.operand ob = some b → s.operand oc = some c → s.operand od = some d →
    decode w = .command i →
    step s = exec i ((s.withProgram rest).drive w a b c d)

/-- The frame of every command, ADC, SBB, MAC, MAS, DIV, BREV and BREVX: it always answers a next state; while halted nothing
changes; else it either completes, writing OUT0, OUT1 and VALID alone, or faults, writing STATUS alone. No build bit, line or
host field changes. -/
def Obligations.CommandFrame : Prop :=
  ∀ (i : Instr) (s : State), ∃ t, exec i s = .next t ∧ s.SameOutside t ∧
    ((s.fault = true ∧ t = s) ∨
      (s.fault = false ∧ ∃ v0 v1, s.CompletedFrom t v0 v1) ∨
      (s.fault = false ∧ ∃ code, s.FaultedFrom t code (encode i)))

/-- R34: of a block that is not halted, the result of a command depends only on its word, its operands and the build; never on
OUT0, OUT1, STATUS or anything earlier. -/
def Obligations.ResultDependsOnOperandsOnly : Prop :=
  ∀ (i : Instr) (s s' t t' : State),
    s.fault = false → s'.fault = false →
    s.checked = s'.checked → s.indexBits = s'.indexBits →
    s.portA = s'.portA → s.portB = s'.portB → s.portC = s'.portC → s.portD = s'.portD →
    exec i s = .next t → exec i s' = .next t' →
    t.fault = t'.fault ∧ t.valid = t'.valid ∧
    (t.fault = false → t.out0 = t'.out0 ∧ t.out1 = t'.out1) ∧
    (t.fault = true → t.cause = t'.cause ∧ t.fcmd = t'.fcmd)

/-- R58: two blocks in the same state whose used ports agree are in the same state after the command, whatever the ignored
ports carry; and the assembler drives 0 on those. -/
def Obligations.IgnoredPortsHaveNoEffect : Prop :=
  (∀ (i : Instr) (s s' : State),
    s.SameBlock s' →
    s'.portA = s.portA → (2 ≤ i.arity → s'.portB = s.portB) → (3 ≤ i.arity → s'.portC = s.portC) →
    (4 ≤ i.arity → s'.portD = s.portD) →
    ∃ t t', exec i s = .next t ∧ exec i s' = .next t' ∧ t.SameBlock t') ∧
  (∀ (i : Instr) (ops : List Operand), ops.length = i.arity →
    ∃ a b c d, issueOf i ops = .issue (encode i) a b c d ∧
      (i.arity < 2 → b = .lit 0) ∧ (i.arity < 3 → c = .lit 0) ∧ (i.arity < 4 → d = .lit 0))

/-! ### The commands -/

/-- R70, R71, R73: ADC's word, its sum and carry in both builds, its CARRY_RANGE fault in the debug build, its release result
for a carry above 1, and the spec's corner cases. -/
def Obligations.AdcCommand : Prop :=
  encode .adc = 0x00000001 ∧
  (∀ s : State, s.fault = false → (s.checked = false ∨ s.portC.toNat ≤ 1) →
    ∃ t sum carry, exec .adc s = .next t ∧ s.CompletedFrom t sum carry ∧
      s.portA.toNat + s.portB.toNat + s.portC.toNat = carry.toNat * 2 ^ 64 + sum.toNat ∧
      (s.portC.toNat ≤ 1 → carry = 0 ∨ carry = 1) ∧ carry.toNat ≤ 2 ∧
      sum.toNat = (s.portA.toNat + s.portB.toNat + s.portC.toNat) % 2 ^ 64 ∧
      carry.toNat = (s.portA.toNat + s.portB.toNat + s.portC.toNat) / 2 ^ 64) ∧
  (∀ s : State, s.fault = false → s.checked = true → 1 < s.portC.toNat →
    ∃ t, exec .adc s = .next t ∧ s.FaultedFrom t 2 0x00000001) ∧
  (∀ k : Bool, adcResult k 0 0 0 = .ok 0 0 ∧ adcResult k M64 1 0 = .ok 0 1 ∧ adcResult k M64 0 1 = .ok 0 1 ∧
    adcResult k M64 M64 1 = .ok M64 1 ∧ adcResult k M64 M64 0 = .ok 0xFFFFFFFFFFFFFFFE 1) ∧
  adcResult false M64 M64 M64 = .ok 0xFFFFFFFFFFFFFFFD 2

/-- From R72, which the spec marks as derived from R70 and R71: with a carry of 0 or 1 the accumulator has nothing above bit
64, and its upper limb is that bit. -/
def Obligations.AdcCarryIsOneBit : Prop :=
  ∀ (k : Bool) (a b c : Word), c.toNat ≤ 1 →
    (wide a + wide b + wide c).toNat ≤ 2 ^ 65 - 1 ∧
    ∃ v, adcResult k a b c = .ok v ((BitVec.ofBool ((wide a + wide b + wide c).getLsbD 64)).setWidth 64)

/-- R74, R77: SBB's word, its difference and borrow count in both builds, its BORROW_RANGE fault in the debug build, its release
result for a borrow above 1, and the spec's corner cases. -/
def Obligations.SbbCommand : Prop :=
  encode .sbb = 0x00000002 ∧
  (∀ s : State, s.fault = false → (s.checked = false ∨ s.portC.toNat ≤ 1) →
    ∃ t diff borrow, exec .sbb s = .next t ∧ s.CompletedFrom t diff borrow ∧
      (s.portA.toNat : Int) - s.portB.toNat - s.portC.toNat = diff.toNat - borrow.toNat * 2 ^ 64 ∧
      (diff.toNat : Int) = ((s.portA.toNat : Int) - s.portB.toNat - s.portC.toNat) % 2 ^ 64 ∧
      borrow.toNat ≤ 2 ∧ (s.portC.toNat ≤ 1 → borrow.toNat ≤ 1)) ∧
  (∀ s : State, s.fault = false → s.checked = true → 1 < s.portC.toNat →
    ∃ t, exec .sbb s = .next t ∧ s.FaultedFrom t 3 0x00000002) ∧
  (∀ a b c : Word, c.toNat ≤ 1 →
    (highLimb (wide a - (wide b + wide c)) = 0 ∨ highLimb (wide a - (wide b + wide c)) = M64) ∧
    borrowCount (wide a - (wide b + wide c)) =
      (BitVec.ofBool ((wide a - (wide b + wide c)).getLsbD 127)).setWidth 64) ∧
  (∀ k : Bool, sbbResult k 0 1 0 = .ok M64 1 ∧ sbbResult k 0 0 1 = .ok M64 1 ∧ sbbResult k 3 3 0 = .ok 0 0 ∧
    sbbResult k 3 3 1 = .ok M64 1 ∧ sbbResult k 0 M64 1 = .ok 0 1 ∧ sbbResult k M64 M64 1 = .ok M64 1 ∧
    sbbResult k 5 3 1 = .ok 1 0) ∧
  sbbResult false 0 M64 M64 = .ok 2 2 ∧ sbbResult false 5 0 M64 = .ok 6 1

/-- From R75 (marked by the spec as derived from R74) and R76: with a borrow of 0 or 1 going in, SBB's OUT1 is 1 exactly when
the true difference is negative, else 0, and so never all ones. -/
def Obligations.SbbBorrowIsSign : Prop :=
  ∀ s : State, s.fault = false → s.portC.toNat ≤ 1 →
    ∃ t borrow, exec .sbb s = .next t ∧ t.out1 = some borrow ∧
      (borrow = 1 ↔ (s.portA.toNat : Int) - s.portB.toNat - s.portC.toNat < 0) ∧
      (borrow = 0 ↔ 0 ≤ (s.portA.toNat : Int) - s.portB.toNat - s.portC.toNat) ∧
      borrow ≠ M64

/-- R78, R80: MAC's word, its exact sum for every carry word in both builds, no fault, and the spec's corner cases. -/
def Obligations.MacCommand : Prop :=
  encode .mac = 0x00000003 ∧
  (∀ s : State, s.fault = false →
    s.portA.toNat + s.portB.toNat * s.portC.toNat + s.portD.toNat ≤ 2 ^ 128 - 1 ∧
    ∃ t sum carry, exec .mac s = .next t ∧ s.CompletedFrom t sum carry ∧
      s.portA.toNat + s.portB.toNat * s.portC.toNat + s.portD.toNat = carry.toNat * 2 ^ 64 + sum.toNat) ∧
  macResult 0 M64 M64 0 = .ok 1 0xFFFFFFFFFFFFFFFE ∧ macResult M64 M64 M64 M64 = .ok M64 M64 ∧
  macResult 0 0x100000000 0x100000000 0 = .ok 0 1 ∧ macResult 1 2 3 4 = .ok 0xB 0

/-- R81, R84: MAS's word, its completion with the difference and the borrow count of the wide subtraction, its BORROW_RANGE
fault in the debug build, and the spec's corner cases. -/
def Obligations.MasCommand : Prop :=
  encode .mas = 0x00000004 ∧
  (∀ s : State, s.fault = false → (s.checked = false ∨ s.portD.toNat ≤ 1) →
    s.portB.toNat * s.portC.toNat + s.portD.toNat ≤ 2 ^ 128 - 2 ^ 64 ∧
    ∃ t diff borrow, exec .mas s = .next t ∧ s.CompletedFrom t diff borrow ∧
      (s.portA.toNat : Int) - s.portB.toNat * s.portC.toNat - s.portD.toNat = diff.toNat - borrow.toNat * 2 ^ 64 ∧
      (s.portB.toNat * s.portC.toNat + s.portD.toNat ≤ s.portA.toNat →
        diff.toNat = s.portA.toNat - (s.portB.toNat * s.portC.toNat + s.portD.toNat) ∧ borrow = 0)) ∧
  (∀ s : State, s.fault = false → s.checked = true → 1 < s.portD.toNat →
    ∃ t, exec .mas s = .next t ∧ s.FaultedFrom t 3 0x00000004) ∧
  (∀ k : Bool, masResult k 0 1 1 0 = .ok M64 1 ∧ masResult k 5 1 5 0 = .ok 0 0 ∧ masResult k 5 1 5 1 = .ok M64 1 ∧
    masResult k 0 M64 M64 0 = .ok M64 M64 ∧ masResult k 0 2 0x8000000000000000 0 = .ok 0 1 ∧
    masResult k 10 2 3 1 = .ok 3 0) ∧
  masResult false M64 M64 M64 M64 = .ok M64 M64

/-- R83: MAS's borrow_out is a full word, in {0, 1} exactly when b·c + borrow_in ≤ a + 2^64, and no build faults on a larger
one. -/
def Obligations.MasBorrowCountRange : Prop :=
  (∀ s : State, s.fault = false → (s.checked = false ∨ s.portD.toNat ≤ 1) →
    ∃ t borrow, exec .mas s = .next t ∧ t.fault = false ∧ t.out1 = some borrow ∧
      (borrow.toNat ≤ 1 ↔ s.portB.toNat * s.portC.toNat + s.portD.toNat ≤ s.portA.toNat + 2 ^ 64)) ∧
  (∀ k : Bool, ∃ v, masResult k 0 M64 M64 0 = .ok v M64)

/-- From R82, which the spec marks as derived from R74 and R81: the negated upper limb of the wide subtraction is the number of
2^64 units borrowed, for every subtrahend the two commands can form. -/
def Obligations.NegatedUpperLimbIsBorrowCount : Prop :=
  ∀ (a : Word) (x : DWord) (diff k : Word),
    x.toNat ≤ 2 ^ 128 - 2 ^ 64 →
    (a.toNat : Int) - x.toNat = diff.toNat - k.toNat * 2 ^ 64 →
    lowLimb (wide a - x) = diff ∧ borrowCount (wide a - x) = k

/-- R86, R87, R88, R89: DIV's word; quotient and remainder in both builds when hi < divisor; the release build's truncated
quotient and exact remainder when hi ≥ divisor ≠ 0; the release build's DivZeroResult, whatever function it is, for divisor 0;
the debug build's two faults, DIV_ZERO first; and the spec's examples. -/
def Obligations.DivCommand : Prop :=
  encode .div = 0x00000005 ∧
  (∀ s : State, s.fault = false → s.portC ≠ 0 → s.portB.toNat < s.portC.toNat →
    ∃ t q r, exec .div s = .next t ∧ s.CompletedFrom t q r ∧
      s.portB.toNat * 2 ^ 64 + s.portA.toNat = q.toNat * s.portC.toNat + r.toNat ∧ r.toNat < s.portC.toNat) ∧
  (∀ s : State, s.fault = false → s.checked = false → s.portC ≠ 0 → s.portC.toNat ≤ s.portB.toNat →
    ∃ t q r, exec .div s = .next t ∧ s.CompletedFrom t q r ∧
      q.toNat = ((s.portB.toNat * 2 ^ 64 + s.portA.toNat) / s.portC.toNat) % 2 ^ 64 ∧
      r.toNat = (s.portB.toNat * 2 ^ 64 + s.portA.toNat) % s.portC.toNat) ∧
  (∀ s : State, s.fault = false → s.checked = false → s.portC = 0 →
    ∃ t, exec .div s = .next t ∧
      s.CompletedFrom t (Config.divZeroResult s.portA s.portB).1 (Config.divZeroResult s.portA s.portB).2) ∧
  (∀ s : State, s.fault = false → s.checked = true → s.portC = 0 →
    ∃ t, exec .div s = .next t ∧ s.FaultedFrom t 4 0x00000005) ∧
  (∀ s : State, s.fault = false → s.checked = true → s.portC ≠ 0 → s.portC.toNat ≤ s.portB.toNat →
    ∃ t, exec .div s = .next t ∧ s.FaultedFrom t 5 0x00000005) ∧
  (∀ k : Bool, divResult k 0 0 1 = .ok 0 0 ∧ divResult k 7 0 2 = .ok 3 1 ∧ divResult k M64 0 M64 = .ok 1 0 ∧
    divResult k 0 1 2 = .ok 0x8000000000000000 0 ∧
    divResult k M64 0xFFFFFFFFFFFFFFFE M64 = .ok M64 0xFFFFFFFFFFFFFFFE ∧ divResult k 1 0 M64 = .ok 0 1 ∧
    divResult k 0x0123456789ABCDEF 0x1234 0x100000000 = .ok 0x0000123401234567 0x89ABCDEF) ∧
  divResult false 0 1 1 = .ok 0 0 ∧ divResult false 5 3 2 = .ok 0x8000000000000002 1 ∧
  divResult false M64 M64 1 = .ok M64 0

/-- From R90, which the spec marks as derived from R86: the check the debug build makes, hi ≥ divisor, is exactly the case of a
quotient that does not fit in 64 bits. -/
def Obligations.DivOverflowIffQuotientTooWide : Prop :=
  ∀ lo hi divisor : Word, divisor ≠ 0 →
    (divResult true lo hi divisor = .fault .divOverflow ↔
      2 ^ 64 ≤ (hi.toNat * 2 ^ 64 + lo.toNat) / divisor.toNat)

/-- R100, R101: BREV's word, its result for every operand in both builds, bit i of OUT0 being bit 63 − i of A, OUT1 = 0, and the
spec's corner cases. -/
def Obligations.BrevCommand : Prop :=
  encode .brev = 0x00000006 ∧
  (∀ s : State, s.fault = false →
    ∃ t v, exec .brev s = .next t ∧ s.CompletedFrom t v 0 ∧
      ∀ i : Nat, i ≤ 63 → v.getLsbD i = s.portA.getLsbD (63 - i)) ∧
  (∀ x : Word, (∀ i : Nat, i ≤ 63 → x.getLsbD i = x.getLsbD (63 - i)) → rev64 x = x) ∧
  rev64 0 = 0 ∧ rev64 M64 = M64 ∧ rev64 1 = 0x8000000000000000 ∧ rev64 0x8000000000000000 = 1 ∧
  rev64 0x0123456789ABCDEF = 0xF7B3D591E6A2C480

/-- R102: BREVX's word; with INDEX_BITS = 64 it is BREV, completing with the reversal of A and 0; with any other it faults
INDEX_WIDTH, both whatever CHECKED is; and the spec's worked example. -/
def Obligations.BrevxCommand : Prop :=
  encode .brevx = 0x00000007 ∧
  (∀ s : State, s.fault = false → s.indexBits = 64 →
    exec .brevx s = exec .brev s ∧ ∃ t, exec .brevx s = .next t ∧ s.CompletedFrom t (rev64 s.portA) 0) ∧
  (∀ s : State, s.fault = false → s.indexBits ≠ 64 →
    ∃ t, exec .brevx s = .next t ∧ s.FaultedFrom t 6 0x00000007) ∧
  brevxResult 64 3 = .ok 0xC000000000000000 0 ∧ brevxResult 32 3 = .fault .indexWidth

/-- From R103, which the spec marks as derived from R100: the reversal is its own inverse, keeps the number of set bits, and maps
x < 2^k to a multiple of 2^(64 − k). -/
def Obligations.ReversalIsInvolution : Prop :=
  ∀ x : Word,
    rev64 (rev64 x) = x ∧
    ((List.range 64).filter fun i => (rev64 x).getLsbD i).length = ((List.range 64).filter fun i => x.getLsbD i).length ∧
    ∀ k : Nat, k ≤ 64 → x.toNat < 2 ^ k → 2 ^ (64 - k) ∣ (rev64 x).toNat

/-- From R104 (marked by the spec as derived from R100) and R149: the reduced index of i < 2^k is the k-bit reversal of i, and 0 for
k = 0. -/
def Obligations.ReducedIndexReversesLowBits : Prop :=
  (∀ (k : Nat) (i : Word), 1 ≤ k → k ≤ 64 → i.toNat < 2 ^ k →
    (reducedIndex k i).toNat < 2 ^ k ∧
    ∀ j : Nat, j < k → (reducedIndex k i).getLsbD j = i.getLsbD (k - 1 - j)) ∧
  (∀ i : Word, reducedIndex 0 i = 0) ∧
  reducedIndex 3 1 = 4

/-- From R92, which the spec marks as derived: zero operands give (0, 0) in both builds; a zero multiplicand makes MAC an ADC of a
and the carry, and MAS an SBB of a and the borrow, with OUT1 in {0, 1} for a carry or borrow of 0 or 1. -/
def Obligations.ZeroOperands : Prop :=
  (∀ s : State, s.fault = false → s.portA = 0 → s.portB = 0 → s.portC = 0 → s.portD = 0 →
    ∀ i : Instr, i = .adc ∨ i = .sbb ∨ i = .mac ∨ i = .mas →
      ∃ t, exec i s = .next t ∧ s.CompletedFrom t 0 0) ∧
  (∀ s : State, s.fault = false → s.portA = 0 → s.portB = 0 → s.portC ≠ 0 →
    ∃ t, exec .div s = .next t ∧ s.CompletedFrom t 0 0) ∧
  (∀ a b c d : Word, b = 0 ∨ c = 0 →
    macResult a b c d = adcResult false a 0 d ∧ masResult false a b c d = sbbResult false a 0 d ∧
    (d.toNat ≤ 1 → ∃ v0 v1 w0 w1, macResult a b c d = .ok v0 v1 ∧ v1.toNat ≤ 1 ∧
      masResult false a b c d = .ok w0 w1 ∧ w1.toNat ≤ 1))

/-- R60: each pseudo-instruction is its one command with those operands, and the block answers with the results the rule gives, in
both builds; DIV64 by zero has DIV's own case. -/
def Obligations.PseudoInstructions : Prop :=
  (∀ x y z : Operand,
    expandPseudo .add [x, y] = some (.adc, [x, y, .lit 0]) ∧ expandPseudo .sub [x, y] = some (.sbb, [x, y, .lit 0]) ∧
    expandPseudo .mul [x, y] = some (.mac, [.lit 0, x, y, .lit 0]) ∧
    expandPseudo .muladd [x, y, z] = some (.mac, [x, y, z, .lit 0]) ∧
    expandPseudo .mulsub [x, y, z] = some (.mas, [x, y, z, .lit 0]) ∧
    expandPseudo .div64 [x, y] = some (.div, [x, .lit 0, y])) ∧
  (∀ (s : State) (a b c : Word), s.fault = false →
    (∃ t v, exec .adc (s.drive (encode .adc) a b 0 0) = .next t ∧ t.fault = false ∧
      t.out0 = some (a + b) ∧ t.out1 = some v ∧ v.toNat = (a.toNat + b.toNat) / 2 ^ 64) ∧
    (∃ t v, exec .sbb (s.drive (encode .sbb) a b 0 0) = .next t ∧ t.fault = false ∧
      t.out0 = some (a - b) ∧ t.out1 = some v ∧ v.toNat = if a.toNat < b.toNat then 1 else 0) ∧
    (∃ t v0 v1, exec .mac (s.drive (encode .mac) 0 b c 0) = .next t ∧ t.fault = false ∧
      t.out0 = some v0 ∧ t.out1 = some v1 ∧ b.toNat * c.toNat = v1.toNat * 2 ^ 64 + v0.toNat) ∧
    (∃ t v0 v1, exec .mac (s.drive (encode .mac) a b c 0) = .next t ∧ t.fault = false ∧
      t.out0 = some v0 ∧ t.out1 = some v1 ∧ a.toNat + b.toNat * c.toNat = v1.toNat * 2 ^ 64 + v0.toNat) ∧
    (∃ t v, exec .mas (s.drive (encode .mas) a b c 0) = .next t ∧ t.fault = false ∧
      t.out0 = some (a - b * c) ∧ t.out1 = some v ∧
      (a.toNat : Int) - b.toNat * c.toNat = (a - b * c).toNat - v.toNat * 2 ^ 64) ∧
    (b ≠ 0 → ∃ t, exec .div (s.drive (encode .div) a 0 b 0) = .next t ∧ t.fault = false ∧
      t.out0 = some (a / b) ∧ t.out1 = some (a % b)))

/-! ### Faults and the halt -/

/-- R57: every word that is none of the seven commands faults ILLEGAL_COMMAND with that word recorded and no result written, in both
builds and whatever its operands, the all-zero word among them; BREVX's word is a command and faults INDEX_WIDTH unless
INDEX_BITS is 64, in both builds. -/
def Obligations.IllegalWordsFault : Prop :=
  (∀ (s : State) (w : CmdBits) (oa ob oc od : Operand) (rest : List HostAction) (a b c d : Word),
    s.program = .issue w oa ob oc od :: rest →
    s.operand oa = some a → s.operand ob = some b → s.operand oc = some c → s.operand od = some d →
    s.fault = false → (∀ i : Instr, w ≠ encode i) →
    ∃ t, step s = .next t ∧ ((s.withProgram rest).drive w a b c d).FaultedFrom t 1 w) ∧
  (∀ i : Instr, (0 : CmdBits) ≠ encode i) ∧
  decode 0x00000007 = .command .brevx ∧
  (∀ s : State, s.fault = false → s.indexBits ≠ 64 → ∃ t, exec .brevx s = .next t ∧ s.FaultedFrom t 6 0x00000007)

/-- R110: the fault table. For a block that is not halted and the command on its lines, each row's condition raises that row's
code, and a fault is only ever one of the rows; the codes are 1 to 6; MAC and BREV raise none. -/
def Obligations.FaultTable : Prop :=
  (∀ s : State, s.fault = false →
    ((∃ why, decode s.cmd = .illegal why) → ∃ t, issueCommand s = .next t ∧ s.FaultedFrom t 1 s.cmd) ∧
    (decode s.cmd = .command .adc → s.checked = true → 1 < s.portC.toNat →
      ∃ t, issueCommand s = .next t ∧ s.FaultedFrom t 2 s.cmd) ∧
    (decode s.cmd = .command .sbb → s.checked = true → 1 < s.portC.toNat →
      ∃ t, issueCommand s = .next t ∧ s.FaultedFrom t 3 s.cmd) ∧
    (decode s.cmd = .command .mas → s.checked = true → 1 < s.portD.toNat →
      ∃ t, issueCommand s = .next t ∧ s.FaultedFrom t 3 s.cmd) ∧
    (decode s.cmd = .command .div → s.checked = true → s.portC = 0 →
      ∃ t, issueCommand s = .next t ∧ s.FaultedFrom t 4 s.cmd) ∧
    (decode s.cmd = .command .div → s.checked = true → s.portC ≠ 0 → s.portC.toNat ≤ s.portB.toNat →
      ∃ t, issueCommand s = .next t ∧ s.FaultedFrom t 5 s.cmd) ∧
    (decode s.cmd = .command .brevx → s.indexBits ≠ 64 →
      ∃ t, issueCommand s = .next t ∧ s.FaultedFrom t 6 s.cmd)) ∧
  (∀ s t : State, s.fault = false → issueCommand s = .next t → t.fault = true →
    ((∃ why, decode s.cmd = .illegal why) ∧ t.cause = 1) ∨
    (decode s.cmd = .command .adc ∧ s.checked = true ∧ 1 < s.portC.toNat ∧ t.cause = 2) ∨
    (decode s.cmd = .command .sbb ∧ s.checked = true ∧ 1 < s.portC.toNat ∧ t.cause = 3) ∨
    (decode s.cmd = .command .mas ∧ s.checked = true ∧ 1 < s.portD.toNat ∧ t.cause = 3) ∨
    (decode s.cmd = .command .div ∧ s.checked = true ∧ s.portC = 0 ∧ t.cause = 4) ∨
    (decode s.cmd = .command .div ∧ s.checked = true ∧ s.portC ≠ 0 ∧ s.portC.toNat ≤ s.portB.toNat ∧ t.cause = 5) ∨
    (decode s.cmd = .command .brevx ∧ s.indexBits ≠ 64 ∧ t.cause = 6))

/-- R67: with CHECKED = false every limb command completes; with CHECKED = true it completes or raises one of the precondition
faults, codes 2 to 5; either way nothing else changes. -/
def Obligations.LimbCommandsOnlyPreconditionFaults : Prop :=
  ∀ (i : Instr) (s : State), i = .adc ∨ i = .sbb ∨ i = .mac ∨ i = .mas ∨ i = .div → s.fault = false →
    (s.checked = false → ∃ t v0 v1, exec i s = .next t ∧ s.CompletedFrom t v0 v1) ∧
    (s.checked = true → ∃ t, exec i s = .next t ∧
      ((∃ v0 v1, s.CompletedFrom t v0 v1) ∨
        ∃ code : BitVec 4, s.FaultedFrom t code (encode i) ∧ 2 ≤ code.toNat ∧ code.toNat ≤ 5))

/-- R116, R117: faults are precise. A command that faults leaves OUT0, OUT1 and everything but STATUS as it was, and records its own
word; each cause is recorded as its code, with that word; and a block that is halted already enters no fault. -/
def Obligations.FaultsArePrecise : Prop :=
  (∀ s t : State, s.fault = false → issueCommand s = .next t → t.fault = true →
    s.FaultedFrom t t.cause s.cmd) ∧
  (∀ (s : State) (c : Cause) (w : CmdBits), s.fault = false →
    ∃ t, s.perform w (.fault c) = .next t ∧ s.FaultedFrom t (causeCode c) w) ∧
  (∀ (s : State) (c : Cause) (w : CmdBits), s.fault = true → s.perform w (.fault c) = .next s)

/-- R120: a halted block ignores every command, whatever its word and operands; host reads go on and return the halted state; only
reset leaves the halt. -/
def Obligations.HaltedIgnoresCommands : Prop :=
  (∀ (s : State) (i : Instr), s.fault = true → exec i s = .next s) ∧
  (∀ (s : State) (w : CmdBits) (oa ob oc od : Operand) (rest : List HostAction) (a b c d : Word),
    s.fault = true → s.program = .issue w oa ob oc od :: rest →
    s.operand oa = some a → s.operand ob = some b → s.operand oc = some c → s.operand od = some d →
    step s = .next ((s.withProgram rest).drive w a b c d)) ∧
  (∀ (s : State) (n : BitVec 8) (x : HostVar) (rest : List HostAction),
    s.fault = true → s.program = .read n x :: rest → 2 ≤ n.toNat →
    ∃ t, step s = .next t ∧ s.SameBlock t ∧ lookupVar x t.vars = s.readReg n) ∧
  (∀ s t : State, s.fault = true → step s = .next t →
    s.SameBlock t ∨ ∃ rest, s.program = .reset :: rest)

/-- R29, R31: FAULT is set by a faulting command alone and cleared by reset alone; FCMD is written with the faulting command's word
when FAULT goes from 0 to 1 and then stays until reset (and CAUSE with it). -/
def Obligations.FirstFaultIsKept : Prop :=
  (∀ s t : State, step s = .next t → (∀ rest, s.program ≠ .reset :: rest) →
    (s.fault = true → t.fault = true ∧ t.cause = s.cause ∧ t.fcmd = s.fcmd) ∧
    (s.fault = false → t.fault = true → ∃ w oa ob oc od rest, s.program = .issue w oa ob oc od :: rest ∧ t.fcmd = w) ∧
    (s.fault = false → t.fault = false → t.cause = s.cause ∧ t.fcmd = s.fcmd)) ∧
  (∀ (s : State) (rest : List HostAction), s.program = .reset :: rest →
    ∃ t, step s = .next t ∧ t.fault = false ∧ t.cause = 0 ∧ t.fcmd = 0)

/-- R28: VALID is set by every command that completes, cleared by reset and by a faulting command, and left by a command that a
halted block ignores (where it is already 0 in a legal state) and by everything else the host does. -/
def Obligations.ValidBitRule : Prop :=
  (∀ (s t : State) (w : CmdBits) (oa ob oc od : Operand) (rest : List HostAction),
    s.program = .issue w oa ob oc od :: rest → step s = .next t →
    (s.fault = false → t.fault = false → t.valid = true) ∧
    (s.fault = false → t.fault = true → t.valid = false) ∧
    (s.fault = true → t.valid = s.valid ∧ (s.LegalStatus → t.valid = false))) ∧
  (∀ (s : State) (rest : List HostAction), s.program = .reset :: rest →
    ∃ t, step s = .next t ∧ t.valid = false) ∧
  (∀ s t : State, step s = .next t → (∀ rest, s.program ≠ .reset :: rest) →
    (∀ w oa ob oc od rest, s.program ≠ .issue w oa ob oc od :: rest) → t.valid = s.valid)

/-! ### Registers, reset and the host -/

/-- R26: the fields of STATUS as the host reads it, the reserved bits 0, and the legal states: they hold after reset and every step
keeps them. -/
def Obligations.StatusRegister : Prop :=
  (∀ s : State, ∃ v, s.readReg 2 = some v ∧
    v.getLsbD 0 = s.valid ∧ v.getLsbD 1 = s.fault ∧ v.extractLsb' 2 2 = 0 ∧ v.extractLsb' 4 4 = s.cause ∧
    v.extractLsb' 8 24 = 0 ∧ v.extractLsb' 32 32 = s.fcmd) ∧
  (∀ (c : Bool) (n : BitVec 8), (State.resetOf c n).LegalStatus ∧ statusWord (State.resetOf c n) = 0) ∧
  (∀ s t : State, s.LegalStatus → step s = .next t → t.LegalStatus)

/-- R27: the fields of CONFIG as the host reads it, the reserved bits 0, and that no step changes it, reset included. -/
def Obligations.ConfigRegister : Prop :=
  (∀ s : State, ∃ v, s.readReg 3 = some v ∧
    v.getLsbD 0 = s.checked ∧ v.extractLsb' 1 7 = 0 ∧ v.extractLsb' 8 8 = s.indexBits ∧ v.extractLsb' 16 48 = 0) ∧
  (∀ s t : State, step s = .next t →
    t.checked = s.checked ∧ t.indexBits = s.indexBits ∧ t.readReg 3 = s.readReg 3)

/-- R24: what each register number reads as (OUT0 and OUT1 while VALID = 1), 0 for every other number; reads and bindings change
nothing in the block, and a write to any number, whatever the value, changes nothing at all. -/
def Obligations.HostReadsAndWrites : Prop :=
  (∀ s : State, (s.valid = true → s.readReg 0 = s.out0 ∧ s.readReg 1 = s.out1) ∧
    s.readReg 2 = some (statusWord s) ∧ s.readReg 3 = some (configWord s) ∧
    ∀ n : BitVec 8, 4 ≤ n.toNat → s.readReg n = some 0) ∧
  (∀ (s t : State) (n : BitVec 8) (x : HostVar) (rest : List HostAction),
    s.program = .read n x :: rest → step s = .next t → s.SameBlock t) ∧
  (∀ (s t : State) (x : HostVar) (y : Option HostVar) (rest : List HostAction),
    s.program = .bind x y :: rest → step s = .next t → s.SameBlock t) ∧
  (∀ (s : State) (n : BitVec 8) (o : Operand) (v : Word) (rest : List HostAction),
    s.program = .write n o :: rest → s.operand o = some v → step s = .next (s.withProgram rest))

/-- R32: while VALID = 0 neither OUT0 nor OUT1 reads as any value and a READ of one is a fault of the host program; after reset they
hold none, and after a fault what the last good command left. -/
def Obligations.NoValueWhileNotValid : Prop :=
  (∀ s : State, s.valid = false → s.readReg 0 = none ∧ s.readReg 1 = none) ∧
  (∀ (s : State) (n : BitVec 8) (x : HostVar) (rest : List HostAction),
    s.valid = false → s.program = .read n x :: rest → n = 0 ∨ n = 1 → step s = .fault .readWithoutValue) ∧
  (∀ (s : State) (rest : List HostAction), s.program = .reset :: rest →
    ∃ t, step s = .next t ∧ t.out0 = none ∧ t.out1 = none) ∧
  (∀ s t : State, s.fault = false → issueCommand s = .next t → t.fault = true →
    t.valid = false ∧ t.out0 = s.out0 ∧ t.out1 = s.out1)

/-- A READ that has a value binds that value, notes it with its register number, and continues (R50, R59, R157). -/
def Obligations.ReadBindsRegisterValue : Prop :=
  ∀ (s : State) (n : BitVec 8) (x : HostVar) (rest : List HostAction) (v : Word),
    s.program = .read n x :: rest → s.readReg n = some v →
    ∃ t, step s = .next t ∧ t.program = rest ∧ lookupVar x t.vars = some v ∧
      (∀ y, y ≠ x → lookupVar y t.vars = lookupVar y s.vars) ∧ t.observed = s.observed ++ [(n, v)]

/-- The binding of a line (R59), with one destination or two: with VALID = 1 the variables get OUT0 and OUT1 (the second wins where
the two names are one); with VALID = 0 it is a host error, noted, and no variable changes. That the run goes on, and what is
noted as read, is the model's choice, logs 11 and 13. -/
def Obligations.BindingNeedsValid : Prop :=
  (∀ (s : State) (x : HostVar) (rest : List HostAction) (v0 : Word),
    s.program = .bind x none :: rest → s.valid = true → s.out0 = some v0 →
    ∃ t, step s = .next t ∧ lookupVar x t.vars = some v0 ∧ t.bindError = s.bindError ∧
      (∀ z, z ≠ x → lookupVar z t.vars = lookupVar z s.vars) ∧
      t.observed = s.observed ++ [(2, statusWord s), (0, v0)]) ∧
  (∀ (s : State) (x y : HostVar) (rest : List HostAction) (v0 v1 : Word),
    s.program = .bind x (some y) :: rest → s.valid = true → s.out0 = some v0 → s.out1 = some v1 →
    ∃ t, step s = .next t ∧ (x ≠ y → lookupVar x t.vars = some v0) ∧ lookupVar y t.vars = some v1 ∧
      t.bindError = s.bindError ∧ (∀ z, z ≠ x → z ≠ y → lookupVar z t.vars = lookupVar z s.vars) ∧
      t.observed = s.observed ++ [(2, statusWord s), (0, v0), (1, v1)]) ∧
  (∀ (s : State) (x : HostVar) (y : Option HostVar) (rest : List HostAction),
    s.program = .bind x y :: rest → s.valid = false →
    ∃ t, step s = .next t ∧ t.vars = s.vars ∧ t.bindError = true ∧ t.observed = s.observed ++ [(2, statusWord s)])

/-- The host's shift (R59): the variable gets the operand shifted right by k, 0 for k ≥ 64 (R149), and the block does not change. -/
def Obligations.HostShift : Prop :=
  ∀ (s : State) (o : Operand) (k : Nat) (x : HostVar) (rest : List HostAction) (v : Word),
    s.program = .shr o k x :: rest → s.operand o = some v →
    ∃ t u, step s = .next t ∧ s.SameBlock t ∧ lookupVar x t.vars = some u ∧ u.toNat = v.toNat / 2 ^ k ∧
      (64 ≤ k → u = 0) ∧ ∀ y, y ≠ x → lookupVar y t.vars = lookupVar y s.vars

/-- R140, R37: the RESET event from any state: OUT0 and OUT1 hold no value, STATUS is 0, CONFIG is unchanged, and the block is not
halted; no other event clears FAULT. -/
def Obligations.ResetEvent : Prop :=
  (∀ (s : State) (rest : List HostAction), s.program = .reset :: rest →
    ∃ t, step s = .next t ∧ t.out0 = none ∧ t.out1 = none ∧ t.valid = false ∧ t.fault = false ∧ t.cause = 0 ∧
      t.fcmd = 0 ∧ t.readReg 2 = some 0 ∧ t.readReg 3 = s.readReg 3 ∧ t.checked = s.checked ∧
      t.indexBits = s.indexBits ∧ t.program = rest) ∧
  (∀ s t : State, step s = .next t → s.fault = true → t.fault = false → ∃ rest, s.program = .reset :: rest)

/-- From R129: the block holds OUT0, OUT1 and STATUS until the next command or reset, whatever else the host does. That a step with
nothing left to do exists, and answers the same whole state, is the model's choice, log 1: the spec gives no step without an
event. -/
def Obligations.StateHeldUntilCommandOrReset : Prop :=
  (∀ s t : State, step s = .next t → ¬ s.SameBlock t →
    (∃ rest, s.program = .reset :: rest) ∨ ∃ w oa ob oc od rest, s.program = .issue w oa ob oc od :: rest) ∧
  (∀ s : State, s.program = [] → step s = .next s)

/-- The value a step notes as read from OUT0 or OUT1 is the register's, read with VALID = 1 (R32, R157). -/
def Obligations.OnlyVouchedResultsObserved : Prop :=
  ∀ s t : State, step s = .next t →
    ∃ new, t.observed = s.observed ++ new ∧
      ∀ n v, (n, v) ∈ new → n = 0 ∨ n = 1 →
        s.valid = true ∧ (n = 0 → s.out0 = some v) ∧ (n = 1 → s.out1 = some v)

/-- Host variables: a bound name reads as the value bound last, and every other name as before (R59). -/
def Obligations.VariableBinding : Prop :=
  ∀ (x : HostVar) (v : Word) (l : List (HostVar × Word)),
    lookupVar x (bindVar x v l) = some v ∧ ∀ y, y ≠ x → lookupVar y (bindVar x v l) = lookupVar y l

/-- A run ends when the host has performed its last action (R157): each step takes one action, so as many steps as actions leave
none. -/
def Obligations.RunEndsWithLastAction : Prop :=
  ∀ (n : Nat) (s t : State), s.program.length ≤ n → core.run n s = .next t → t.Finished

/-- Where the model stops, and nowhere else: a READ of OUT0 or OUT1 while VALID = 0 (R32), or an action with an operand that has no
value (R59, log 12). No command stops, and nothing is refused. The premise is a part of the invariant of `StepKeepsInv`. -/
def Obligations.StopsOnlyForHostFaults : Prop :=
  (∀ (s : State) (r : Fault), s.ResultsTogether → step s = .fault r →
    (r = .readWithoutValue ∧ s.valid = false ∧ ∃ n x rest, s.program = .read n x :: rest ∧ (n = 0 ∨ n = 1)) ∨
    (r = .unboundVariable ∧ ∃ act rest o, s.program = act :: rest ∧ o ∈ act.operands ∧ s.operand o = none)) ∧
  (∀ (s : State) (act : HostAction) (rest : List HostAction) (o : Operand),
    s.program = act :: rest → o ∈ act.operands → s.operand o = none → step s = .fault .unboundVariable) ∧
  (∀ (s : State) (r : Refusal), step s ≠ .refused r)

/-- R35: a step of one instance leaves every other instance as it was, and is that instance's own step. -/
def Obligations.InstancesShareNothing : Prop :=
  ∀ (k : Nat) (blocks after : List State), stepInstance k blocks = .next after →
    after.length = blocks.length ∧
    (∀ j : Nat, j ≠ k → after[j]? = blocks[j]?) ∧
    (∀ s, blocks[k]? = some s → ∃ t, step s = .next t ∧ after[k]? = some t)

/-! ### Invariants -/

/-- The invariant holds after reset, for every build of R11 and for the build that `State.reset` fixes (log 5). -/
def Obligations.InvAtReset : Prop :=
  (∀ (c : Bool) (n : BitVec 8), n ≠ 0 → (State.resetOf c n).Inv) ∧ State.reset.Inv

/-- Every step keeps the invariant, from every state that meets it: the legal states of R26, both results written together (R25), a
build of R11, and a recorded fault that the recorded word can raise on this build (R110). -/
def Obligations.StepKeepsInv : Prop :=
  ∀ s t : State, s.Inv → step s = .next t → t.Inv

/-! ### Compositions on multi-limb integers -/

/-- From R93 (marked by the spec as derived) and R146: N ADCs with carry seeded 0 give the N-limb sum and a carry that is 1 exactly on
overflow, in both builds, never faulting. -/
def Obligations.AddChainIsExact : Prop :=
  ∀ (s : State) (ps : List (Word × Word)), s.fault = false →
    ∃ vs carry t, carryChain .adc 0 s ps = some (vs, carry, t) ∧ t.fault = false ∧ vs.length = ps.length ∧
      limbsValue vs =
        (limbsValue (ps.map Prod.fst) + limbsValue (ps.map Prod.snd)) % 2 ^ (64 * ps.length) ∧
      (carry = 0 ∨ carry = 1) ∧
      (carry = 1 ↔ 2 ^ (64 * ps.length) ≤ limbsValue (ps.map Prod.fst) + limbsValue (ps.map Prod.snd))

/-- From R93 (marked by the spec as derived) and R146: N SBBs with borrow seeded 0 give the N-limb difference mod 2^(64N) and a borrow
that is 1 exactly when the true result is negative, in both builds, never faulting. -/
def Obligations.SubChainIsExact : Prop :=
  ∀ (s : State) (ps : List (Word × Word)), s.fault = false →
    ∃ vs borrow t, carryChain .sbb 0 s ps = some (vs, borrow, t) ∧ t.fault = false ∧ vs.length = ps.length ∧
      (limbsValue vs : Int) =
        ((limbsValue (ps.map Prod.fst) : Int) - limbsValue (ps.map Prod.snd)) % 2 ^ (64 * ps.length) ∧
      (borrow = 0 ∨ borrow = 1) ∧
      (borrow = 1 ↔ limbsValue (ps.map Prod.fst) < limbsValue (ps.map Prod.snd))

/-- From R93 (marked by the spec as derived) and R147: N DIVs from the most significant limb down, each taking the previous remainder,
give quotient and remainder of the N-limb integer by a one-limb divisor, in both builds, never faulting. -/
def Obligations.DivChainIsExact : Prop :=
  ∀ (s : State) (d : Word) (xs : List Word), s.fault = false → d ≠ 0 →
    ∃ qs r t, divChain d s xs = some (qs, r, t) ∧ t.fault = false ∧ qs.length = xs.length ∧
      limbsValue qs = limbsValue xs / d.toNat ∧ r.toNat = limbsValue xs % d.toNat

/-- From R150 (marked by the spec as derived from R79, and its loop structure as general knowledge, G4): the schoolbook loop of MACs
yields the exact product, in both builds, never faulting. -/
def Obligations.SchoolbookIsExact : Prop :=
  ∀ (s : State) (xs ys : List Word), s.fault = false →
    ∃ ps t, schoolbook xs ys s = some (ps, t) ∧ t.fault = false ∧ ps.length = xs.length + ys.length ∧
      limbsValue ps = limbsValue xs * limbsValue ys
end

