-- ==== Sys2Proof/Laws/Limbs.lean ====
section
/-! SUPPORT. What the limb operations are as numbers: splitting the accumulator, the borrow count (R82), bits of the reversal
(R100). -/

namespace Sys2Proof.Machine

@[simp] theorem wide_toNat (x : Word) : (wide x).toNat = x.toNat := by
  simp only [wide, BitVec.toNat_setWidth]
  omega

theorem lowLimb_toNat (x : DWord) : (lowLimb x).toNat = x.toNat % 2 ^ 64 := by
  simp [lowLimb]

theorem highLimb_toNat (x : DWord) : (highLimb x).toNat = x.toNat / 2 ^ 64 := by
  simp only [highLimb, BitVec.extractLsb'_toNat, Nat.shiftRight_eq_div_pow]
  omega

/-- The accumulator is its two limbs. -/
theorem limbs_split (x : DWord) : x.toNat = (highLimb x).toNat * 2 ^ 64 + (lowLimb x).toNat := by
  rw [highLimb_toNat, lowLimb_toNat]
  omega

/-- A difference modulo 2^128 of a limb and a subtrahend that at most 2^64 − 1 borrows can cover. -/
theorem wide_sub_toNat (a : Word) (x : DWord) :
    (wide a - x).toNat = if x.toNat ≤ a.toNat then a.toNat - x.toNat else 2 ^ 128 + a.toNat - x.toNat := by
  rw [BitVec.toNat_sub, wide_toNat]
  split <;> omega

/-- The negated upper limb counts the borrows: the wide subtraction is exact over the integers (R82). -/
theorem borrowCount_exact (a : Word) (x : DWord) (hx : x.toNat ≤ 2 ^ 128 - 2 ^ 64) :
    (a.toNat : Int) - x.toNat = (lowLimb (wide a - x)).toNat - (borrowCount (wide a - x)).toNat * 2 ^ 64 := by
  have hw := wide_sub_toNat a x
  have hh := highLimb_toNat (wide a - x)
  have hl := lowLimb_toNat (wide a - x)
  rw [borrowCount, BitVec.toNat_neg, hh, hl, hw]
  split <;> omega

/-- The product of two limbs plus two more is below 2^128 (R79). -/
theorem mul_add_add_le (a b c d : Word) :
    a.toNat + b.toNat * c.toNat + d.toNat ≤ 2 ^ 128 - 1 := by
  have h : b.toNat * c.toNat ≤ (2 ^ 64 - 1) * (2 ^ 64 - 1) :=
    Nat.mul_le_mul (by omega) (by omega)
  omega

/-- The accumulator of MAC holds its sum exactly (R78). -/
theorem mac_acc_toNat (a b c d : Word) :
    (wide a + wide b * wide c + wide d).toNat = a.toNat + b.toNat * c.toNat + d.toNat := by
  have h := mul_add_add_le a b c d
  simp only [BitVec.toNat_add, BitVec.toNat_mul, wide_toNat]
  omega

/-- The subtrahend of MAS is exact (R81). -/
theorem mas_sub_toNat (b c d : Word) :
    (wide b * wide c + wide d).toNat = b.toNat * c.toNat + d.toNat := by
  have h := mul_add_add_le 0 b c d
  simp only [BitVec.toNat_add, BitVec.toNat_mul, wide_toNat] at h ⊢
  omega

/-- The subtrahend of MAS is one the borrow count can cover (R81). -/
theorem mas_sub_le (b c d : Word) : (wide b * wide c + wide d).toNat ≤ 2 ^ 128 - 2 ^ 64 := by
  have h : b.toNat * c.toNat ≤ (2 ^ 64 - 1) * (2 ^ 64 - 1) :=
    Nat.mul_le_mul (by omega) (by omega)
  rw [mas_sub_toNat]
  omega

/-- The sum of ADC and the subtrahend of SBB are exact (R70, R74). -/
theorem adc_acc_toNat (a b c : Word) : (wide a + wide b + wide c).toNat = a.toNat + b.toNat + c.toNat := by
  simp only [BitVec.toNat_add, wide_toNat]
  omega

theorem sbb_sub_toNat (b c : Word) : (wide b + wide c).toNat = b.toNat + c.toNat := by
  simp only [BitVec.toNat_add, wide_toNat]
  omega

/-- The dividend `hi :: lo` (R15, R86). -/
theorem dividend_toNat (lo hi : Word) : (hi ++ lo : DWord).toNat = hi.toNat * 2 ^ 64 + lo.toNat := by
  have := lo.isLt
  rw [BitVec.toNat_append, Nat.shiftLeft_eq, Nat.mul_comm, ← Nat.two_pow_add_eq_or_of_lt this]

/-- Bit `i` of the reversal is bit `63 − i` (R100). -/
theorem rev64_bit (x : Word) (i : Nat) (h : i < 64) : (rev64 x).getLsbD i = x.getLsbD (63 - i) := by
  simp only [rev64, revByte, BitVec.getLsbD_append, BitVec.getLsbD_ofFnLE]
  interval_cases i <;> simp

theorem outsideBit_eq (v : Word) : outsideBit v = decide (1 < v.toNat) := by
  simp [outsideBit, BitVec.lt_def]

end Sys2Proof.Machine
end

