-- ==== Sys2Proof/Laws/State.lean ====
section
/-! SUPPORT. One lemma per field per update of State, each true by definition, so that no later proof unfolds an update. -/

namespace Sys2Proof.Machine

/-! ### drive: the host drives the lines (R50) -/

@[simp] theorem State.drive_out0 (s : State) (w : CmdBits) (a b c d : Word) :
    (s.drive w a b c d).out0 = s.out0 := rfl
@[simp] theorem State.drive_out1 (s : State) (w : CmdBits) (a b c d : Word) :
    (s.drive w a b c d).out1 = s.out1 := rfl
@[simp] theorem State.drive_valid (s : State) (w : CmdBits) (a b c d : Word) :
    (s.drive w a b c d).valid = s.valid := rfl
@[simp] theorem State.drive_fault (s : State) (w : CmdBits) (a b c d : Word) :
    (s.drive w a b c d).fault = s.fault := rfl
@[simp] theorem State.drive_cause (s : State) (w : CmdBits) (a b c d : Word) :
    (s.drive w a b c d).cause = s.cause := rfl
@[simp] theorem State.drive_fcmd (s : State) (w : CmdBits) (a b c d : Word) :
    (s.drive w a b c d).fcmd = s.fcmd := rfl
@[simp] theorem State.drive_checked (s : State) (w : CmdBits) (a b c d : Word) :
    (s.drive w a b c d).checked = s.checked := rfl
@[simp] theorem State.drive_indexBits (s : State) (w : CmdBits) (a b c d : Word) :
    (s.drive w a b c d).indexBits = s.indexBits := rfl
@[simp] theorem State.drive_cmd (s : State) (w : CmdBits) (a b c d : Word) :
    (s.drive w a b c d).cmd = w := rfl
@[simp] theorem State.drive_portA (s : State) (w : CmdBits) (a b c d : Word) :
    (s.drive w a b c d).portA = a := rfl
@[simp] theorem State.drive_portB (s : State) (w : CmdBits) (a b c d : Word) :
    (s.drive w a b c d).portB = b := rfl
@[simp] theorem State.drive_portC (s : State) (w : CmdBits) (a b c d : Word) :
    (s.drive w a b c d).portC = c := rfl
@[simp] theorem State.drive_portD (s : State) (w : CmdBits) (a b c d : Word) :
    (s.drive w a b c d).portD = d := rfl
@[simp] theorem State.drive_regnum (s : State) (w : CmdBits) (a b c d : Word) :
    (s.drive w a b c d).regnum = s.regnum := rfl
@[simp] theorem State.drive_program (s : State) (w : CmdBits) (a b c d : Word) :
    (s.drive w a b c d).program = s.program := rfl
@[simp] theorem State.drive_vars (s : State) (w : CmdBits) (a b c d : Word) :
    (s.drive w a b c d).vars = s.vars := rfl
@[simp] theorem State.drive_observed (s : State) (w : CmdBits) (a b c d : Word) :
    (s.drive w a b c d).observed = s.observed := rfl
@[simp] theorem State.drive_bindError (s : State) (w : CmdBits) (a b c d : Word) :
    (s.drive w a b c d).bindError = s.bindError := rfl

/-! ### setVar: a host variable is bound (R59) -/

@[simp] theorem State.setVar_out0 (s : State) (x : HostVar) (v : Word) :
    (s.setVar x v).out0 = s.out0 := rfl
@[simp] theorem State.setVar_out1 (s : State) (x : HostVar) (v : Word) :
    (s.setVar x v).out1 = s.out1 := rfl
@[simp] theorem State.setVar_valid (s : State) (x : HostVar) (v : Word) :
    (s.setVar x v).valid = s.valid := rfl
@[simp] theorem State.setVar_fault (s : State) (x : HostVar) (v : Word) :
    (s.setVar x v).fault = s.fault := rfl
@[simp] theorem State.setVar_cause (s : State) (x : HostVar) (v : Word) :
    (s.setVar x v).cause = s.cause := rfl
@[simp] theorem State.setVar_fcmd (s : State) (x : HostVar) (v : Word) :
    (s.setVar x v).fcmd = s.fcmd := rfl
@[simp] theorem State.setVar_checked (s : State) (x : HostVar) (v : Word) :
    (s.setVar x v).checked = s.checked := rfl
@[simp] theorem State.setVar_indexBits (s : State) (x : HostVar) (v : Word) :
    (s.setVar x v).indexBits = s.indexBits := rfl
@[simp] theorem State.setVar_cmd (s : State) (x : HostVar) (v : Word) :
    (s.setVar x v).cmd = s.cmd := rfl
@[simp] theorem State.setVar_portA (s : State) (x : HostVar) (v : Word) :
    (s.setVar x v).portA = s.portA := rfl
@[simp] theorem State.setVar_portB (s : State) (x : HostVar) (v : Word) :
    (s.setVar x v).portB = s.portB := rfl
@[simp] theorem State.setVar_portC (s : State) (x : HostVar) (v : Word) :
    (s.setVar x v).portC = s.portC := rfl
@[simp] theorem State.setVar_portD (s : State) (x : HostVar) (v : Word) :
    (s.setVar x v).portD = s.portD := rfl
@[simp] theorem State.setVar_regnum (s : State) (x : HostVar) (v : Word) :
    (s.setVar x v).regnum = s.regnum := rfl
@[simp] theorem State.setVar_program (s : State) (x : HostVar) (v : Word) :
    (s.setVar x v).program = s.program := rfl
@[simp] theorem State.setVar_vars (s : State) (x : HostVar) (v : Word) :
    (s.setVar x v).vars = bindVar x v s.vars := rfl
@[simp] theorem State.setVar_observed (s : State) (x : HostVar) (v : Word) :
    (s.setVar x v).observed = s.observed := rfl
@[simp] theorem State.setVar_bindError (s : State) (x : HostVar) (v : Word) :
    (s.setVar x v).bindError = s.bindError := rfl

/-! ### complete: a command completes (R66) -/

@[simp] theorem State.complete_out0 (s : State) (v0 v1 : Word) :
    (s.complete v0 v1).out0 = some v0 := rfl
@[simp] theorem State.complete_out1 (s : State) (v0 v1 : Word) :
    (s.complete v0 v1).out1 = some v1 := rfl
@[simp] theorem State.complete_valid (s : State) (v0 v1 : Word) :
    (s.complete v0 v1).valid = true := rfl
@[simp] theorem State.complete_fault (s : State) (v0 v1 : Word) :
    (s.complete v0 v1).fault = s.fault := rfl
@[simp] theorem State.complete_cause (s : State) (v0 v1 : Word) :
    (s.complete v0 v1).cause = s.cause := rfl
@[simp] theorem State.complete_fcmd (s : State) (v0 v1 : Word) :
    (s.complete v0 v1).fcmd = s.fcmd := rfl
@[simp] theorem State.complete_checked (s : State) (v0 v1 : Word) :
    (s.complete v0 v1).checked = s.checked := rfl
@[simp] theorem State.complete_indexBits (s : State) (v0 v1 : Word) :
    (s.complete v0 v1).indexBits = s.indexBits := rfl
@[simp] theorem State.complete_cmd (s : State) (v0 v1 : Word) :
    (s.complete v0 v1).cmd = s.cmd := rfl
@[simp] theorem State.complete_portA (s : State) (v0 v1 : Word) :
    (s.complete v0 v1).portA = s.portA := rfl
@[simp] theorem State.complete_portB (s : State) (v0 v1 : Word) :
    (s.complete v0 v1).portB = s.portB := rfl
@[simp] theorem State.complete_portC (s : State) (v0 v1 : Word) :
    (s.complete v0 v1).portC = s.portC := rfl
@[simp] theorem State.complete_portD (s : State) (v0 v1 : Word) :
    (s.complete v0 v1).portD = s.portD := rfl
@[simp] theorem State.complete_regnum (s : State) (v0 v1 : Word) :
    (s.complete v0 v1).regnum = s.regnum := rfl
@[simp] theorem State.complete_program (s : State) (v0 v1 : Word) :
    (s.complete v0 v1).program = s.program := rfl
@[simp] theorem State.complete_vars (s : State) (v0 v1 : Word) :
    (s.complete v0 v1).vars = s.vars := rfl
@[simp] theorem State.complete_observed (s : State) (v0 v1 : Word) :
    (s.complete v0 v1).observed = s.observed := rfl
@[simp] theorem State.complete_bindError (s : State) (v0 v1 : Word) :
    (s.complete v0 v1).bindError = s.bindError := rfl

/-! ### enterFault: a command faults (R117) -/

@[simp] theorem State.enterFault_out0 (s : State) (c : Cause) (w : CmdBits) :
    (s.enterFault c w).out0 = s.out0 := rfl
@[simp] theorem State.enterFault_out1 (s : State) (c : Cause) (w : CmdBits) :
    (s.enterFault c w).out1 = s.out1 := rfl
@[simp] theorem State.enterFault_valid (s : State) (c : Cause) (w : CmdBits) :
    (s.enterFault c w).valid = false := rfl
@[simp] theorem State.enterFault_fault (s : State) (c : Cause) (w : CmdBits) :
    (s.enterFault c w).fault = true := rfl
@[simp] theorem State.enterFault_cause (s : State) (c : Cause) (w : CmdBits) :
    (s.enterFault c w).cause = causeCode c := rfl
@[simp] theorem State.enterFault_fcmd (s : State) (c : Cause) (w : CmdBits) :
    (s.enterFault c w).fcmd = w := rfl
@[simp] theorem State.enterFault_checked (s : State) (c : Cause) (w : CmdBits) :
    (s.enterFault c w).checked = s.checked := rfl
@[simp] theorem State.enterFault_indexBits (s : State) (c : Cause) (w : CmdBits) :
    (s.enterFault c w).indexBits = s.indexBits := rfl
@[simp] theorem State.enterFault_cmd (s : State) (c : Cause) (w : CmdBits) :
    (s.enterFault c w).cmd = s.cmd := rfl
@[simp] theorem State.enterFault_portA (s : State) (c : Cause) (w : CmdBits) :
    (s.enterFault c w).portA = s.portA := rfl
@[simp] theorem State.enterFault_portB (s : State) (c : Cause) (w : CmdBits) :
    (s.enterFault c w).portB = s.portB := rfl
@[simp] theorem State.enterFault_portC (s : State) (c : Cause) (w : CmdBits) :
    (s.enterFault c w).portC = s.portC := rfl
@[simp] theorem State.enterFault_portD (s : State) (c : Cause) (w : CmdBits) :
    (s.enterFault c w).portD = s.portD := rfl
@[simp] theorem State.enterFault_regnum (s : State) (c : Cause) (w : CmdBits) :
    (s.enterFault c w).regnum = s.regnum := rfl
@[simp] theorem State.enterFault_program (s : State) (c : Cause) (w : CmdBits) :
    (s.enterFault c w).program = s.program := rfl
@[simp] theorem State.enterFault_vars (s : State) (c : Cause) (w : CmdBits) :
    (s.enterFault c w).vars = s.vars := rfl
@[simp] theorem State.enterFault_observed (s : State) (c : Cause) (w : CmdBits) :
    (s.enterFault c w).observed = s.observed := rfl
@[simp] theorem State.enterFault_bindError (s : State) (c : Cause) (w : CmdBits) :
    (s.enterFault c w).bindError = s.bindError := rfl

/-! ### resetBlock: reset (R140) -/

@[simp] theorem State.resetBlock_out0 (s : State) :
    (s.resetBlock).out0 = none := rfl
@[simp] theorem State.resetBlock_out1 (s : State) :
    (s.resetBlock).out1 = none := rfl
@[simp] theorem State.resetBlock_valid (s : State) :
    (s.resetBlock).valid = false := rfl
@[simp] theorem State.resetBlock_fault (s : State) :
    (s.resetBlock).fault = false := rfl
@[simp] theorem State.resetBlock_cause (s : State) :
    (s.resetBlock).cause = 0 := rfl
@[simp] theorem State.resetBlock_fcmd (s : State) :
    (s.resetBlock).fcmd = 0 := rfl
@[simp] theorem State.resetBlock_checked (s : State) :
    (s.resetBlock).checked = s.checked := rfl
@[simp] theorem State.resetBlock_indexBits (s : State) :
    (s.resetBlock).indexBits = s.indexBits := rfl
@[simp] theorem State.resetBlock_cmd (s : State) :
    (s.resetBlock).cmd = s.cmd := rfl
@[simp] theorem State.resetBlock_portA (s : State) :
    (s.resetBlock).portA = s.portA := rfl
@[simp] theorem State.resetBlock_portB (s : State) :
    (s.resetBlock).portB = s.portB := rfl
@[simp] theorem State.resetBlock_portC (s : State) :
    (s.resetBlock).portC = s.portC := rfl
@[simp] theorem State.resetBlock_portD (s : State) :
    (s.resetBlock).portD = s.portD := rfl
@[simp] theorem State.resetBlock_regnum (s : State) :
    (s.resetBlock).regnum = s.regnum := rfl
@[simp] theorem State.resetBlock_program (s : State) :
    (s.resetBlock).program = s.program := rfl
@[simp] theorem State.resetBlock_vars (s : State) :
    (s.resetBlock).vars = s.vars := rfl
@[simp] theorem State.resetBlock_observed (s : State) :
    (s.resetBlock).observed = s.observed := rfl
@[simp] theorem State.resetBlock_bindError (s : State) :
    (s.resetBlock).bindError = s.bindError := rfl

/-! ### setRegnum: the host selects a register (R50) -/

@[simp] theorem State.setRegnum_out0 (s : State) (n : BitVec 8) :
    (s.setRegnum n).out0 = s.out0 := rfl
@[simp] theorem State.setRegnum_out1 (s : State) (n : BitVec 8) :
    (s.setRegnum n).out1 = s.out1 := rfl
@[simp] theorem State.setRegnum_valid (s : State) (n : BitVec 8) :
    (s.setRegnum n).valid = s.valid := rfl
@[simp] theorem State.setRegnum_fault (s : State) (n : BitVec 8) :
    (s.setRegnum n).fault = s.fault := rfl
@[simp] theorem State.setRegnum_cause (s : State) (n : BitVec 8) :
    (s.setRegnum n).cause = s.cause := rfl
@[simp] theorem State.setRegnum_fcmd (s : State) (n : BitVec 8) :
    (s.setRegnum n).fcmd = s.fcmd := rfl
@[simp] theorem State.setRegnum_checked (s : State) (n : BitVec 8) :
    (s.setRegnum n).checked = s.checked := rfl
@[simp] theorem State.setRegnum_indexBits (s : State) (n : BitVec 8) :
    (s.setRegnum n).indexBits = s.indexBits := rfl
@[simp] theorem State.setRegnum_cmd (s : State) (n : BitVec 8) :
    (s.setRegnum n).cmd = s.cmd := rfl
@[simp] theorem State.setRegnum_portA (s : State) (n : BitVec 8) :
    (s.setRegnum n).portA = s.portA := rfl
@[simp] theorem State.setRegnum_portB (s : State) (n : BitVec 8) :
    (s.setRegnum n).portB = s.portB := rfl
@[simp] theorem State.setRegnum_portC (s : State) (n : BitVec 8) :
    (s.setRegnum n).portC = s.portC := rfl
@[simp] theorem State.setRegnum_portD (s : State) (n : BitVec 8) :
    (s.setRegnum n).portD = s.portD := rfl
@[simp] theorem State.setRegnum_regnum (s : State) (n : BitVec 8) :
    (s.setRegnum n).regnum = n := rfl
@[simp] theorem State.setRegnum_program (s : State) (n : BitVec 8) :
    (s.setRegnum n).program = s.program := rfl
@[simp] theorem State.setRegnum_vars (s : State) (n : BitVec 8) :
    (s.setRegnum n).vars = s.vars := rfl
@[simp] theorem State.setRegnum_observed (s : State) (n : BitVec 8) :
    (s.setRegnum n).observed = s.observed := rfl
@[simp] theorem State.setRegnum_bindError (s : State) (n : BitVec 8) :
    (s.setRegnum n).bindError = s.bindError := rfl

/-! ### writeReg: a host write (R24) -/

@[simp] theorem State.writeReg_out0 (s : State) (n : BitVec 8) (v : Word) :
    (s.writeReg n v).out0 = s.out0 := rfl
@[simp] theorem State.writeReg_out1 (s : State) (n : BitVec 8) (v : Word) :
    (s.writeReg n v).out1 = s.out1 := rfl
@[simp] theorem State.writeReg_valid (s : State) (n : BitVec 8) (v : Word) :
    (s.writeReg n v).valid = s.valid := rfl
@[simp] theorem State.writeReg_fault (s : State) (n : BitVec 8) (v : Word) :
    (s.writeReg n v).fault = s.fault := rfl
@[simp] theorem State.writeReg_cause (s : State) (n : BitVec 8) (v : Word) :
    (s.writeReg n v).cause = s.cause := rfl
@[simp] theorem State.writeReg_fcmd (s : State) (n : BitVec 8) (v : Word) :
    (s.writeReg n v).fcmd = s.fcmd := rfl
@[simp] theorem State.writeReg_checked (s : State) (n : BitVec 8) (v : Word) :
    (s.writeReg n v).checked = s.checked := rfl
@[simp] theorem State.writeReg_indexBits (s : State) (n : BitVec 8) (v : Word) :
    (s.writeReg n v).indexBits = s.indexBits := rfl
@[simp] theorem State.writeReg_cmd (s : State) (n : BitVec 8) (v : Word) :
    (s.writeReg n v).cmd = s.cmd := rfl
@[simp] theorem State.writeReg_portA (s : State) (n : BitVec 8) (v : Word) :
    (s.writeReg n v).portA = s.portA := rfl
@[simp] theorem State.writeReg_portB (s : State) (n : BitVec 8) (v : Word) :
    (s.writeReg n v).portB = s.portB := rfl
@[simp] theorem State.writeReg_portC (s : State) (n : BitVec 8) (v : Word) :
    (s.writeReg n v).portC = s.portC := rfl
@[simp] theorem State.writeReg_portD (s : State) (n : BitVec 8) (v : Word) :
    (s.writeReg n v).portD = s.portD := rfl
@[simp] theorem State.writeReg_regnum (s : State) (n : BitVec 8) (v : Word) :
    (s.writeReg n v).regnum = s.regnum := rfl
@[simp] theorem State.writeReg_program (s : State) (n : BitVec 8) (v : Word) :
    (s.writeReg n v).program = s.program := rfl
@[simp] theorem State.writeReg_vars (s : State) (n : BitVec 8) (v : Word) :
    (s.writeReg n v).vars = s.vars := rfl
@[simp] theorem State.writeReg_observed (s : State) (n : BitVec 8) (v : Word) :
    (s.writeReg n v).observed = s.observed := rfl
@[simp] theorem State.writeReg_bindError (s : State) (n : BitVec 8) (v : Word) :
    (s.writeReg n v).bindError = s.bindError := rfl

/-! ### observe: the host notes a value (R157) -/

@[simp] theorem State.observe_out0 (s : State) (n : BitVec 8) (v : Word) :
    (s.observe n v).out0 = s.out0 := rfl
@[simp] theorem State.observe_out1 (s : State) (n : BitVec 8) (v : Word) :
    (s.observe n v).out1 = s.out1 := rfl
@[simp] theorem State.observe_valid (s : State) (n : BitVec 8) (v : Word) :
    (s.observe n v).valid = s.valid := rfl
@[simp] theorem State.observe_fault (s : State) (n : BitVec 8) (v : Word) :
    (s.observe n v).fault = s.fault := rfl
@[simp] theorem State.observe_cause (s : State) (n : BitVec 8) (v : Word) :
    (s.observe n v).cause = s.cause := rfl
@[simp] theorem State.observe_fcmd (s : State) (n : BitVec 8) (v : Word) :
    (s.observe n v).fcmd = s.fcmd := rfl
@[simp] theorem State.observe_checked (s : State) (n : BitVec 8) (v : Word) :
    (s.observe n v).checked = s.checked := rfl
@[simp] theorem State.observe_indexBits (s : State) (n : BitVec 8) (v : Word) :
    (s.observe n v).indexBits = s.indexBits := rfl
@[simp] theorem State.observe_cmd (s : State) (n : BitVec 8) (v : Word) :
    (s.observe n v).cmd = s.cmd := rfl
@[simp] theorem State.observe_portA (s : State) (n : BitVec 8) (v : Word) :
    (s.observe n v).portA = s.portA := rfl
@[simp] theorem State.observe_portB (s : State) (n : BitVec 8) (v : Word) :
    (s.observe n v).portB = s.portB := rfl
@[simp] theorem State.observe_portC (s : State) (n : BitVec 8) (v : Word) :
    (s.observe n v).portC = s.portC := rfl
@[simp] theorem State.observe_portD (s : State) (n : BitVec 8) (v : Word) :
    (s.observe n v).portD = s.portD := rfl
@[simp] theorem State.observe_regnum (s : State) (n : BitVec 8) (v : Word) :
    (s.observe n v).regnum = s.regnum := rfl
@[simp] theorem State.observe_program (s : State) (n : BitVec 8) (v : Word) :
    (s.observe n v).program = s.program := rfl
@[simp] theorem State.observe_vars (s : State) (n : BitVec 8) (v : Word) :
    (s.observe n v).vars = s.vars := rfl
@[simp] theorem State.observe_observed (s : State) (n : BitVec 8) (v : Word) :
    (s.observe n v).observed = s.observed ++ [(n, v)] := rfl
@[simp] theorem State.observe_bindError (s : State) (n : BitVec 8) (v : Word) :
    (s.observe n v).bindError = s.bindError := rfl

/-! ### flagBindError: a binding without a value (R59) -/

@[simp] theorem State.flagBindError_out0 (s : State) :
    (s.flagBindError).out0 = s.out0 := rfl
@[simp] theorem State.flagBindError_out1 (s : State) :
    (s.flagBindError).out1 = s.out1 := rfl
@[simp] theorem State.flagBindError_valid (s : State) :
    (s.flagBindError).valid = s.valid := rfl
@[simp] theorem State.flagBindError_fault (s : State) :
    (s.flagBindError).fault = s.fault := rfl
@[simp] theorem State.flagBindError_cause (s : State) :
    (s.flagBindError).cause = s.cause := rfl
@[simp] theorem State.flagBindError_fcmd (s : State) :
    (s.flagBindError).fcmd = s.fcmd := rfl
@[simp] theorem State.flagBindError_checked (s : State) :
    (s.flagBindError).checked = s.checked := rfl
@[simp] theorem State.flagBindError_indexBits (s : State) :
    (s.flagBindError).indexBits = s.indexBits := rfl
@[simp] theorem State.flagBindError_cmd (s : State) :
    (s.flagBindError).cmd = s.cmd := rfl
@[simp] theorem State.flagBindError_portA (s : State) :
    (s.flagBindError).portA = s.portA := rfl
@[simp] theorem State.flagBindError_portB (s : State) :
    (s.flagBindError).portB = s.portB := rfl
@[simp] theorem State.flagBindError_portC (s : State) :
    (s.flagBindError).portC = s.portC := rfl
@[simp] theorem State.flagBindError_portD (s : State) :
    (s.flagBindError).portD = s.portD := rfl
@[simp] theorem State.flagBindError_regnum (s : State) :
    (s.flagBindError).regnum = s.regnum := rfl
@[simp] theorem State.flagBindError_program (s : State) :
    (s.flagBindError).program = s.program := rfl
@[simp] theorem State.flagBindError_vars (s : State) :
    (s.flagBindError).vars = s.vars := rfl
@[simp] theorem State.flagBindError_observed (s : State) :
    (s.flagBindError).observed = s.observed := rfl
@[simp] theorem State.flagBindError_bindError (s : State) :
    (s.flagBindError).bindError = true := rfl

/-! ### withProgram: what is left of the host's program (R157) -/

@[simp] theorem State.withProgram_out0 (s : State) (p : List HostAction) :
    (s.withProgram p).out0 = s.out0 := rfl
@[simp] theorem State.withProgram_out1 (s : State) (p : List HostAction) :
    (s.withProgram p).out1 = s.out1 := rfl
@[simp] theorem State.withProgram_valid (s : State) (p : List HostAction) :
    (s.withProgram p).valid = s.valid := rfl
@[simp] theorem State.withProgram_fault (s : State) (p : List HostAction) :
    (s.withProgram p).fault = s.fault := rfl
@[simp] theorem State.withProgram_cause (s : State) (p : List HostAction) :
    (s.withProgram p).cause = s.cause := rfl
@[simp] theorem State.withProgram_fcmd (s : State) (p : List HostAction) :
    (s.withProgram p).fcmd = s.fcmd := rfl
@[simp] theorem State.withProgram_checked (s : State) (p : List HostAction) :
    (s.withProgram p).checked = s.checked := rfl
@[simp] theorem State.withProgram_indexBits (s : State) (p : List HostAction) :
    (s.withProgram p).indexBits = s.indexBits := rfl
@[simp] theorem State.withProgram_cmd (s : State) (p : List HostAction) :
    (s.withProgram p).cmd = s.cmd := rfl
@[simp] theorem State.withProgram_portA (s : State) (p : List HostAction) :
    (s.withProgram p).portA = s.portA := rfl
@[simp] theorem State.withProgram_portB (s : State) (p : List HostAction) :
    (s.withProgram p).portB = s.portB := rfl
@[simp] theorem State.withProgram_portC (s : State) (p : List HostAction) :
    (s.withProgram p).portC = s.portC := rfl
@[simp] theorem State.withProgram_portD (s : State) (p : List HostAction) :
    (s.withProgram p).portD = s.portD := rfl
@[simp] theorem State.withProgram_regnum (s : State) (p : List HostAction) :
    (s.withProgram p).regnum = s.regnum := rfl
@[simp] theorem State.withProgram_program (s : State) (p : List HostAction) :
    (s.withProgram p).program = p := rfl
@[simp] theorem State.withProgram_vars (s : State) (p : List HostAction) :
    (s.withProgram p).vars = s.vars := rfl
@[simp] theorem State.withProgram_observed (s : State) (p : List HostAction) :
    (s.withProgram p).observed = s.observed := rfl
@[simp] theorem State.withProgram_bindError (s : State) (p : List HostAction) :
    (s.withProgram p).bindError = s.bindError := rfl

end Sys2Proof.Machine
end

