-- ==== Sys2Proof/Laws/Ops.lean ====
section
/-! SUPPORT. What each shared operation can do, said once: the common step, the commands, the host's actions, the step. -/

namespace Sys2Proof.Machine

/-! ### The common step (R66) -/

theorem perform_halted (s : State) (w : CmdBits) (r : CmdResult) (h : s.fault = true) : s.perform w r = .next s := by
  simp [State.perform, h]

theorem perform_ok (s : State) (w : CmdBits) (v0 v1 : Word) (h : s.fault = false) :
    s.perform w (.ok v0 v1) = .next (s.complete v0 v1) := by
  simp [State.perform, h]

theorem perform_fault (s : State) (w : CmdBits) (c : Cause) (h : s.fault = false) :
    s.perform w (.fault c) = .next (s.enterFault c w) := by
  simp [State.perform, h]

/-- The common step has three outcomes: ignored, completed, faulted. -/
theorem perform_cases (s t : State) (w : CmdBits) (r : CmdResult) (h : s.perform w r = .next t) :
    (s.fault = true ∧ t = s) ∨
      (s.fault = false ∧ ∃ v0 v1, r = .ok v0 v1 ∧ t = s.complete v0 v1) ∨
      (s.fault = false ∧ ∃ c, r = .fault c ∧ t = s.enterFault c w) := by
  cases hf : s.fault with
  | true =>
    rw [perform_halted s w r hf] at h
    exact .inl ⟨rfl, by injection h with h; exact h.symm⟩
  | false =>
    cases r with
    | ok v0 v1 =>
      rw [perform_ok s w v0 v1 hf] at h
      exact .inr (.inl ⟨rfl, v0, v1, rfl, by injection h with h; exact h.symm⟩)
    | fault c =>
      rw [perform_fault s w c hf] at h
      exact .inr (.inr ⟨rfl, c, rfl, by injection h with h; exact h.symm⟩)

/-- The common step always answers a next state. -/
theorem perform_next (s : State) (w : CmdBits) (r : CmdResult) : ∃ t, s.perform w r = .next t := by
  cases hf : s.fault with
  | true => exact ⟨s, perform_halted s w r hf⟩
  | false =>
    cases r with
    | ok v0 v1 => exact ⟨_, perform_ok s w v0 v1 hf⟩
    | fault c => exact ⟨_, perform_fault s w c hf⟩

/-! ### The commands -/

/-- The result of a command on this state, by its own rule. -/
def resultOf (i : Instr) (s : State) : CmdResult :=
  match i with
  | .adc => adcResult s.checked s.portA s.portB s.portC
  | .sbb => sbbResult s.checked s.portA s.portB s.portC
  | .mac => macResult s.portA s.portB s.portC s.portD
  | .mas => masResult s.checked s.portA s.portB s.portC s.portD
  | .div => divResult s.checked s.portA s.portB s.portC
  | .brev => brevResult s.portA
  | .brevx => brevxResult s.indexBits s.portA

/-- Every command is the common step with its own word and result (R66). -/
theorem exec_eq_perform (i : Instr) (s : State) : exec i s = s.perform (encode i) (resultOf i s) := by
  cases i <;> rfl

theorem exec_of_ok {i : Instr} {s : State} {v0 v1 : Word} (h : s.fault = false) (hr : resultOf i s = .ok v0 v1) :
    exec i s = .next (s.complete v0 v1) := by
  rw [exec_eq_perform, hr, perform_ok _ _ _ _ h]

theorem exec_of_fault {i : Instr} {s : State} {c : Cause} (h : s.fault = false) (hr : resultOf i s = .fault c) :
    exec i s = .next (s.enterFault c (encode i)) := by
  rw [exec_eq_perform, hr, perform_fault _ _ _ h]

/-- A completing command writes OUT0, OUT1 and VALID and nothing else (R66). -/
theorem complete_completedFrom (s : State) (v0 v1 : Word) : s.CompletedFrom (s.complete v0 v1) v0 v1 := by
  simp [State.CompletedFrom, State.SameOutside]

/-- A faulting command writes STATUS and nothing else (R117). -/
theorem enterFault_faultedFrom (s : State) (c : Cause) (w : CmdBits) :
    s.FaultedFrom (s.enterFault c w) (causeCode c) w := by
  simp [State.FaultedFrom, State.SameOutside]

/-- Every way the computation of a command can fault (R110, codes 2 to 6). -/
theorem resultOf_fault_cases (i : Instr) (s : State) (c : Cause) (h : resultOf i s = .fault c) :
    (i = .adc ∧ s.checked = true ∧ 1 < s.portC.toNat ∧ c = .carryRange) ∨
    (i = .sbb ∧ s.checked = true ∧ 1 < s.portC.toNat ∧ c = .borrowRange) ∨
    (i = .mas ∧ s.checked = true ∧ 1 < s.portD.toNat ∧ c = .borrowRange) ∨
    (i = .div ∧ s.checked = true ∧ s.portC = 0 ∧ c = .divZero) ∨
    (i = .div ∧ s.checked = true ∧ s.portC ≠ 0 ∧ s.portC.toNat ≤ s.portB.toNat ∧ c = .divOverflow) ∨
    (i = .brevx ∧ s.indexBits ≠ 64 ∧ c = .indexWidth) := by
  cases i <;>
    simp only [resultOf, adcResult, sbbResult, macResult, masResult, divResult, brevResult, brevxResult] at h
  case adc =>
    split at h <;> simp_all [outsideBit_eq]
  case sbb =>
    split at h <;> simp_all [outsideBit_eq]
  case mac => cases h
  case mas =>
    split at h <;> simp_all [outsideBit_eq]
  case div =>
    split at h
    case isTrue => split at h <;> simp_all
    case isFalse => split at h <;> simp_all [BitVec.le_def]
  case brev => cases h
  case brevx => split at h <;> simp_all

/-! ### Issuing -/

/-- The command on the lines is the common step with the word on CMD. -/
theorem issueCommand_eq (s : State) : ∃ r, issueCommand s = s.perform
    (match decode s.cmd with | .command i => encode i | .illegal _ => s.cmd) r := by
  unfold issueCommand
  cases decode s.cmd with
  | command i => exact ⟨resultOf i s, exec_eq_perform i s⟩
  | illegal why => exact ⟨_, rfl⟩

/-- A register read does not look at the lines or the host, only at the block. -/
theorem readReg_setRegnum (s : State) (n m : BitVec 8) : (s.setRegnum n).readReg m = s.readReg m := rfl

theorem rdata_setRegnum (s : State) (n : BitVec 8) : (s.setRegnum n).rdata = s.readReg n := rfl

/-! ### The step -/

theorem step_idle (s : State) (h : s.program = []) : step s = .next s := by
  simp [step, runNext, h]

/-- A step with work left is the next action on the state without it. -/
theorem step_action (s : State) (act : HostAction) (rest : List HostAction) (h : s.program = act :: rest) :
    step s = runAction act (s.withProgram rest) := by
  simp [step, runNext, h]

@[simp] theorem operand_withProgram (s : State) (p : List HostAction) (o : Operand) :
    (s.withProgram p).operand o = s.operand o := by
  cases o <;> rfl

theorem bindReg_sameBlock (s : State) (n : BitVec 8) (x : HostVar) : s.SameBlock (s.bindReg n x) := by
  unfold State.bindReg
  split <;> simp [State.SameBlock]

theorem bindReg_program (s : State) (n : BitVec 8) (x : HostVar) : (s.bindReg n x).program = s.program := by
  unfold State.bindReg
  split <;> simp

theorem sameBlock_trans {s t u : State} (h : s.SameBlock t) (h' : t.SameBlock u) : s.SameBlock u := by
  obtain ⟨a1, a2, a3, a4, a5, a6, a7, a8⟩ := h
  obtain ⟨b1, b2, b3, b4, b5, b6, b7, b8⟩ := h'
  exact ⟨b1.trans a1, b2.trans a2, b3.trans a3, b4.trans a4, b5.trans a5, b6.trans a6, b7.trans a7, b8.trans a8⟩

/-- The host's bookkeeping does not touch the block, and takes no more than its own action. -/
theorem runBind_sameBlock {s t : State} {x : HostVar} {y : Option HostVar} (h : runBind x y s = .next t) :
    s.SameBlock t ∧ t.program = s.program := by
  have h0 : s.SameBlock ((s.setRegnum 2).observe 2 (statusWord s)) := by simp [State.SameBlock]
  have h1 := sameBlock_trans h0 (bindReg_sameBlock ((s.setRegnum 2).observe 2 (statusWord s)) 0 x)
  cases y with
  | none =>
    injection h with h
    subst h
    exact ⟨h1, by rw [bindReg_program]; simp⟩
  | some y =>
    injection h with h
    subst h
    exact ⟨sameBlock_trans h1 (bindReg_sameBlock _ 1 y), by rw [bindReg_program, bindReg_program]; simp⟩

/-- Everything a step can do: idle, reset, a command, or an action of the host's that leaves the block as it was. -/
theorem step_cases {s t : State} (h : step s = .next t) :
    (s.program = [] ∧ t = s) ∨
    (∃ rest, s.program = .reset :: rest ∧ t = (s.withProgram rest).resetBlock) ∨
    (∃ w oa ob oc od rest a b c d, s.program = .issue w oa ob oc od :: rest ∧
      s.operand oa = some a ∧ s.operand ob = some b ∧ s.operand oc = some c ∧ s.operand od = some d ∧
      issueCommand ((s.withProgram rest).drive w a b c d) = .next t) ∨
    (∃ act rest, s.program = act :: rest ∧ (∀ w a b c d, act ≠ .issue w a b c d) ∧ act ≠ .reset ∧
      t.program = rest ∧ s.SameBlock t) := by
  cases hp : s.program with
  | nil =>
    rw [step_idle s hp] at h
    injection h with h
    exact .inl ⟨rfl, h.symm⟩
  | cons act rest =>
    rw [step_action s _ _ hp] at h
    cases act with
    | reset =>
      injection h with h
      exact .inr (.inl ⟨rest, rfl, h.symm⟩)
    | issue w oa ob oc od =>
      simp only [runAction, runIssue, operand_withProgram] at h
      split at h
      · rename_i a b c d ha hb hc hd
        exact .inr (.inr (.inl ⟨w, oa, ob, oc, od, rest, a, b, c, d, rfl, ha, hb, hc, hd, h⟩))
      · cases h
    | read n x =>
      simp only [runAction, runRead] at h
      split at h
      · injection h with h
        subst h
        exact .inr (.inr (.inr ⟨_, _, rfl, by simp, by simp, by simp, by simp [State.SameBlock]⟩))
      · cases h
    | write n v =>
      simp only [runAction, runWrite] at h
      split at h
      · injection h with h
        subst h
        exact .inr (.inr (.inr ⟨_, _, rfl, by simp, by simp, by simp, by simp [State.SameBlock]⟩))
      · cases h
    | bind x y =>
      obtain ⟨hb, hq⟩ := runBind_sameBlock (s := s.withProgram rest) h
      exact .inr (.inr (.inr ⟨_, _, rfl, by simp, by simp, by simpa using hq,
        sameBlock_trans (by simp [State.SameBlock]) hb⟩))
    | shr v k x =>
      simp only [runAction, runShr] at h
      split at h
      · injection h with h
        subst h
        exact .inr (.inr (.inr ⟨_, _, rfl, by simp, by simp, by simp, by simp [State.SameBlock]⟩))
      · cases h

/-- A run of `n + 1` steps is a step and a run of `n`. -/
theorem run_succ (n : Nat) (s : State) :
    Host.Core.run core (n + 1) s =
      match step s with
      | .next t => Host.Core.run core n t
      | .fault r => .fault r
      | .refused r => .refused r := by
  simp only [Host.Core.run]
  have e : core.step s = step s := rfl
  generalize core.step s = x at e
  subst e
  cases step s <;> rfl

end Sys2Proof.Machine
end

