-- ==== Sys2Proof/Laws/PerInstr.lean ====
section
/-! SUPPORT. The statement made for every command: its one word decodes to it and is a well-formed word (R55, R61). -/

/-- The command's word has RSV = 0 and an assigned OPC, and decodes to the command. -/
def Sys2Proof.Laws.RoundTrip.Statement (i : Sys2Proof.Instr) : Prop :=
  Sys2Proof.decode (Sys2Proof.encode i) = .command i ∧
    (Sys2Proof.CommandWord.ofBits (Sys2Proof.encode i)).wf = true

theorem Sys2Proof.Laws.RoundTrip.adc : Sys2Proof.Laws.RoundTrip.Statement .adc := by
  unfold Sys2Proof.Laws.RoundTrip.Statement; decide

theorem Sys2Proof.Laws.RoundTrip.sbb : Sys2Proof.Laws.RoundTrip.Statement .sbb := by
  unfold Sys2Proof.Laws.RoundTrip.Statement; decide

theorem Sys2Proof.Laws.RoundTrip.mac : Sys2Proof.Laws.RoundTrip.Statement .mac := by
  unfold Sys2Proof.Laws.RoundTrip.Statement; decide

theorem Sys2Proof.Laws.RoundTrip.mas : Sys2Proof.Laws.RoundTrip.Statement .mas := by
  unfold Sys2Proof.Laws.RoundTrip.Statement; decide

theorem Sys2Proof.Laws.RoundTrip.div : Sys2Proof.Laws.RoundTrip.Statement .div := by
  unfold Sys2Proof.Laws.RoundTrip.Statement; decide

theorem Sys2Proof.Laws.RoundTrip.brev : Sys2Proof.Laws.RoundTrip.Statement .brev := by
  unfold Sys2Proof.Laws.RoundTrip.Statement; decide

theorem Sys2Proof.Laws.RoundTrip.brevx : Sys2Proof.Laws.RoundTrip.Statement .brevx := by
  unfold Sys2Proof.Laws.RoundTrip.Statement; decide
end

