-- ==== Sys2Proof/Laws/Vars.lean ====
section
/-! SUPPORT. Binding a host variable keeps the names without repeats. -/

namespace Sys2Proof.Machine

theorem bindVar_names (x : HostVar) (v : Word) (l : List (HostVar × Word)) :
    ∀ y, y ∈ (bindVar x v l).map Prod.fst → y = x ∨ y ∈ l.map Prod.fst := by
  induction l with
  | nil => simp [bindVar]
  | cons p rest ih =>
    obtain ⟨z, u⟩ := p
    intro y hy
    by_cases h : x = z
    · subst h; simpa [bindVar] using hy
    · simp only [bindVar, if_neg h, List.map_cons, List.mem_cons] at hy ⊢
      rcases hy with rfl | hy
      · exact .inr (.inl rfl)
      · rcases ih y hy with rfl | hy
        · exact .inl rfl
        · exact .inr (.inr hy)

/-- No name is listed twice after a binding if none was before. -/
theorem bindVar_nodup (x : HostVar) (v : Word) (l : List (HostVar × Word)) (h : (l.map Prod.fst).Nodup) :
    ((bindVar x v l).map Prod.fst).Nodup := by
  induction l with
  | nil => simp [bindVar]
  | cons p rest ih =>
    obtain ⟨z, u⟩ := p
    simp only [List.map_cons, List.nodup_cons] at h
    by_cases hx : x = z
    · subst hx; simpa [bindVar] using h
    · simp only [bindVar, if_neg hx, List.map_cons, List.nodup_cons]
      refine ⟨fun hm => ?_, ih h.2⟩
      rcases bindVar_names x v rest z hm with rfl | hm
      · exact hx rfl
      · exact h.1 hm

end Sys2Proof.Machine
end

