-- ==== Sys2Proof/Machine/AsmText.lean ====
section
/-! DEFINITION. The text of a listing (R59): characters to tokens to lines. What R59 leaves open about spelling (names, blanks,
the case of the host's own words) is DESIGN CHOICE, safe; log 15. -/

namespace Sys2Proof.Machine

/-- The parts of a line: words, commas and `->`. -/
inductive Token where
  | word (cs : List Char)
  | comma
  | arrow
  deriving DecidableEq, Repr

/-- Put the word read so far (its characters last first) before the tokens that follow it. -/
def flushWord (acc : List Char) (rest : List Token) : List Token :=
  match acc with
  | [] => rest
  | _ :: _ => .word acc.reverse :: rest

/-- The tokens of a line; "`;` begins a comment to the end of the line" (R59). -/
def lexLine (acc : List Char) : List Char → List Token
  | [] => flushWord acc []
  | ';' :: _ => flushWord acc []
  | ',' :: rest => flushWord acc (.comma :: lexLine [] rest)
  | '-' :: '>' :: rest => flushWord acc (.arrow :: lexLine [] rest)
  | ' ' :: rest => flushWord acc (lexLine [] rest)
  | '\t' :: rest => flushWord acc (lexLine [] rest)
  | '\r' :: rest => flushWord acc (lexLine [] rest)
  | c :: rest => lexLine (c :: acc) rest

/-- The value of a digit in a base up to 16. -/
def digitValue (base : Nat) (c : Char) : Option Nat :=
  let n := c.toNat
  let v :=
    if 48 ≤ n ∧ n ≤ 57 then n - 48
    else if 97 ≤ n ∧ n ≤ 102 then n - 87
    else if 65 ≤ n ∧ n ≤ 70 then n - 55
    else 16
  if v < base then some v else none

/-- Digits with `_` allowed between two of them (R59); `afterDigit` says the character before was a digit. -/
def readDigits (base acc : Nat) (afterDigit : Bool) : List Char → Option Nat
  | [] => if afterDigit then some acc else none
  | '_' :: rest => if afterDigit then readDigits base acc false rest else none
  | c :: rest =>
    match digitValue base c with
    | some d => readDigits base (acc * base + d) true rest
    | none => none

/-- A number, decimal or hexadecimal with `0x` (R59). -/
def readNumber : List Char → Option Nat
  | '0' :: 'x' :: rest => readDigits 16 0 false rest
  | cs => readDigits 10 0 false cs

/-- A letter or `_`. -/
def isNameStart (c : Char) : Bool := c.isAlpha || c == '_'

/-- A host variable's name: a letter or `_`, then letters, digits and `_`. -/
def readName : List Char → Option HostVar
  | [] => none
  | c :: rest =>
    if isNameStart c && rest.all (fun x => isNameStart x || x.isDigit) then some (String.ofList (c :: rest)) else none

/-- An operand: the abbreviation `M64` (R18), a 64-bit literal, or a name (R59). -/
def readOperand (cs : List Char) : Option Operand :=
  if cs = ['M', '6', '4'] then some (.lit M64)
  else
    match readNumber cs with
    | some n => if n < 2 ^ 64 then some (.lit (BitVec.ofNat 64 n)) else none
    | none => (readName cs).map .var

/-- The destinations after `->`: one or two names (R59). -/
def readDsts : List Token → Option (List HostVar)
  | [.word x] => (readName x).map fun a => [a]
  | [.word x, .comma, .word y] =>
    match readName x, readName y with
    | some a, some b => some [a, b]
    | _, _ => none
  | _ => none

/-- The operands of a command and its destinations: `op1 [, op2 ...] [-> dst0 [, dst1]]` (R59). -/
def readOperands : List Token → Option (List Operand × List HostVar)
  | [.word w] => (readOperand w).map fun a => ([a], [])
  | .word w :: .arrow :: rest =>
    match readOperand w, readDsts rest with
    | some a, some dsts => some ([a], dsts)
    | _, _ => none
  | .word w :: .comma :: rest =>
    match readOperand w, readOperands rest with
    | some a, some (ops, dsts) => some (a :: ops, dsts)
    | _, _ => none
  | _ => none

/-- A command line, its operands read. -/
def commandLine (m : Instr) (rest : List Token) : Option AsmLine :=
  (readOperands rest).map fun r => .command m r.1 r.2

/-- A pseudo-instruction's line, its operands read. -/
def pseudoLine (p : Pseudo) (rest : List Token) : Option AsmLine :=
  (readOperands rest).map fun r => .pseudo p r.1 r.2

/-- `READ n -> v` (R59); a register number has 8 bits (R50). -/
def readLine : List Token → Option AsmLine
  | [.word n, .arrow, .word v] =>
    match readNumber n, readName v with
    | some k, some x => if k < 2 ^ 8 then some (.read (BitVec.ofNat 8 k) x) else none
    | _, _ => none
  | _ => none

/-- `SHR v, k -> w` (R59); `v` a literal (or M64) or a host variable, as op1 to op4 are, and `k` a number in the text: a line with a
variable for `k` does not assemble. R59 says what neither may be; DESIGN CHOICE, safe; log 14. -/
def shrLine : List Token → Option AsmLine
  | [.word v, .comma, .word k, .arrow, .word w] =>
    match readOperand v, readNumber k, readName w with
    | some a, some n, some x => some (.shr a n x)
    | _, _, _ => none
  | _ => none

/-- `RESET` stands alone on its line (R59). -/
def resetLine : List Token → Option AsmLine
  | [] => some .reset
  | _ :: _ => none

/-- One line of a listing; mnemonics are "case-insensitive" (R59). -/
def parseTokens : List Token → Option AsmLine
  | [] => some .blank
  | .word m :: rest =>
    match String.ofList (m.map Char.toUpper) with
    | "ADC" => commandLine .adc rest
    | "SBB" => commandLine .sbb rest
    | "MAC" => commandLine .mac rest
    | "MAS" => commandLine .mas rest
    | "DIV" => commandLine .div rest
    | "BREV" => commandLine .brev rest
    | "BREVX" => commandLine .brevx rest
    | "ADD" => pseudoLine .add rest
    | "SUB" => pseudoLine .sub rest
    | "MUL" => pseudoLine .mul rest
    | "MULADD" => pseudoLine .muladd rest
    | "MULSUB" => pseudoLine .mulsub rest
    | "DIV64" => pseudoLine .div64 rest
    | "RESET" => resetLine rest
    | "READ" => readLine rest
    | "SHR" => shrLine rest
    | _ => none
  | _ :: _ => none

/-- The lines of a text, `acc` the current line's characters, last first. -/
def splitLines (acc : List Char) : List Char → List (List Char)
  | [] => [acc.reverse]
  | '\n' :: rest => acc.reverse :: splitLines [] rest
  | c :: rest => splitLines (c :: acc) rest

/-- Every line read, or none if one does not read. -/
def parseLines : List (List Char) → Option (List AsmLine)
  | [] => some []
  | cs :: rest =>
    match parseTokens (lexLine [] cs), parseLines rest with
    | some line, some more => some (line :: more)
    | _, _ => none

/-- A listing's text as the host's program (R59, R60). -/
def assembleText (text : String) : Option (List HostAction) :=
  match parseLines (splitLines [] text.toList) with
  | some lines => assemble lines
  | none => none

end Sys2Proof.Machine
end

