-- ==== Sys2Proof/Tests/Slice0.lean ====
section
/-! SUPPORT. Tests: the well-formedness smoke, words written out from the spec, the spec's own vectors (95_test_vectors.md), and for
each statement with hypotheses a state and operands that meet them. -/

namespace Sys2Proof.Machine

/-! ### Well-formedness: for each check, a term that it refuses -/

theorem test_wf_adc_word : (CommandWord.ofBits 0x00000001).wf = true := by decide
theorem test_wf_reserved_bits_refused : (CommandWord.mk 1 0x01).reservedOk = false ∧ (CommandWord.mk 1 0x01).wf = false := by decide
theorem test_wf_opcode_zero_refused : (CommandWord.mk 0 0x00).opcodeOk = false ∧ (CommandWord.mk 0 0x00).wf = false := by decide
theorem test_wf_opcode_eight_refused : (CommandWord.mk 0 0x08).wf = false := by decide
theorem test_wf_line_operand_missing_refused : (AsmLine.command .adc [.lit 1, .lit 2] []).wf = false := by decide
theorem test_wf_line_three_dsts_refused : (AsmLine.command .brev [.lit 1] ["a", "b", "c"]).wf = false := by decide
theorem test_wf_pseudo_operand_extra_refused : (AsmLine.pseudo .add [.lit 1, .lit 2, .lit 3] []).wf = false := by decide
theorem test_wf_program_unbound_name_refused : programWf [] [.issue 1 (.var "c") (.lit 0) (.lit 0) (.lit 0)] = false := by decide
theorem test_wf_program_bound_name : programWf [] [.bind "s" (some "c"), .issue 1 (.var "c") (.lit 0) (.lit 0) (.lit 0)] = true := by
  decide

/-! ### Words -/

/-- 95_test_vectors.md §2.7 and R55: words just outside the seven. -/
theorem test_illegal_words :
    decode 0x00000000 = .illegal .unassignedOpcode ∧ decode 0x00000008 = .illegal .unassignedOpcode ∧
    decode 0x000000FF = .illegal .unassignedOpcode ∧ decode 0x00000101 = .illegal .reservedBits ∧
    decode 0x80000006 = .illegal .reservedBits := by decide

theorem test_table_words :
    decodeTableWord 32 0x00000001 = some .adc ∧ decodeTableWord 32 0x00000002 = some .sbb ∧
    decodeTableWord 32 0x00000003 = some .mac ∧ decodeTableWord 32 0x00000004 = some .mas ∧
    decodeTableWord 32 0x00000005 = some .div ∧ decodeTableWord 32 0x00000006 = some .brev ∧
    decodeTableWord 32 0x00000007 = some .brevx ∧ decodeTableWord 32 0x00000100 = none := by decide

/-! ### The spec's vectors, one step each -/

/-- A block of a given build with a command on its lines. -/
def onLines (checked : Bool) (w : CmdBits) (a b c d : Word) : State := (State.resetOf checked 64).drive w a b c d

/-- OUT0, OUT1 and STATUS after a step's outcome, if it is a next state. -/
def seen : Host.Outcome State Fault Refusal → Option (Option Word × Option Word × Word)
  | .next t => some (t.out0, t.out1, statusWord t)
  | .fault _ => none
  | .refused _ => none

/-- §2.1: wrap; and R73's release row. -/
theorem test_adc_wraps : seen (exec .adc (onLines true 1 M64 1 0 0)) = some (some 0, some 1, 1) := by decide
theorem test_adc_release_out_of_range :
    seen (exec .adc (onLines false 1 M64 M64 M64 0)) = some (some 0xFFFFFFFFFFFFFFFD, some 2, 1) := by decide
/-- §2.1: CARRY_RANGE. -/
theorem test_adc_carry_range : seen (exec .adc (onLines true 1 1 2 2 0)) = some (none, none, 0x0000000100000022) := by decide
/-- §2.2: the largest subtrahend; and the borrow count 2 of R77. -/
theorem test_sbb_largest : seen (exec .sbb (onLines true 2 0 M64 1 0)) = some (some 0, some 1, 1) := by decide
theorem test_sbb_release_count_two : seen (exec .sbb (onLines false 2 0 M64 M64 0)) = some (some 2, some 2, 1) := by decide
/-- §2.3: maximum; and the word carry. -/
theorem test_mac_maximum : seen (exec .mac (onLines true 3 M64 M64 M64 M64)) = some (some M64, some M64, 1) := by decide
theorem test_mac_word_carry : seen (exec .mac (onLines true 3 7 0 M64 M64)) = some (some 6, some 1, 1) := by decide
/-- §2.4: the checked row of the spec; and BORROW_RANGE. -/
theorem test_mas_big_borrow :
    seen (exec .mas (onLines true 4 M64 M64 M64 1)) = some (some 0xFFFFFFFFFFFFFFFD, some 0xFFFFFFFFFFFFFFFE, 1) := by decide
theorem test_mas_borrow_range : seen (exec .mas (onLines true 4 0 M64 M64 2)) = some (none, none, 0x0000000400000032) := by decide
/-- §2.5: truncation in the release build; and DIV_ZERO before DIV_OVERFLOW. -/
theorem test_div_truncated : seen (exec .div (onLines false 5 5 3 2 0)) = some (some 0x8000000000000002, some 1, 1) := by decide
theorem test_div_zero_first : seen (exec .div (onLines true 5 5 3 0 0)) = some (none, none, 0x0000000500000042) := by decide
/-- §2.6. -/
theorem test_brev_vector :
    seen (exec .brev (onLines true 6 0x0123456789ABCDEF 0 0 0)) = some (some 0xF7B3D591E6A2C480, some 0, 1) := by decide
theorem test_brevx_vector : seen (exec .brevx (onLines true 7 5 0 0 0)) = some (some 0xA000000000000000, some 0, 1) := by decide
/-- §2.6: INDEX_BITS = 32. -/
theorem test_brevx_narrow :
    seen (exec .brevx ((State.resetOf false 32).drive 7 3 0 0 0)) = some (none, none, 0x0000000700000062) := by decide
/-- §2.7: an illegal word as the first command after reset. -/
theorem test_step_illegal : seen (step (State.reset.withFetchWord 32 0x00000101)) = some (none, none, 0x0000010100000012) := by decide
theorem test_step_first_command : seen (step (State.reset.withFetchWord 32 0x00000001)) = some (some 0, some 0, 1) := by decide

/-- R27: CONFIG of a release build with a 64-bit index. -/
theorem test_config_word : (State.resetOf false 64).readReg 3 = some 0x0000000000004000 := by decide
/-- R104's example. -/
theorem test_reduced_index : reducedIndex 3 1 = 4 := by decide

/-! ### Listings -/

/-- R59's example. -/
theorem test_asm_example :
    assembleText "ADC 0xFFFF_FFFF_FFFF_FFFF, 1, 0 -> s, c ; R59" =
      some [.issue 0x00000001 (.lit M64) (.lit 1) (.lit 0) (.lit 0), .bind "s" (some "c")] := by decide +kernel
/-- R59, R60: the host's own actions and a pseudo-instruction. -/
theorem test_asm_host_actions :
    assembleText "RESET\nMul p, 7 -> lo\nREAD 2 -> st\nSHR lo, 61 -> j" =
      some [.reset, .issue 0x00000003 (.lit 0) (.var "p") (.lit 7) (.lit 0), .bind "lo" none, .read 2 "st",
        .shr (.var "lo") 61 "j"] := by decide +kernel
theorem test_asm_wrong_count : assembleText "ADC 1, 2" = none := by decide +kernel

/-! ### Chains: 95_test_vectors.md P4 and the square of P3 in one limb -/

theorem test_div_chain : (divChain 10 State.reset [7, 5]).map (fun r => (r.1, r.2.1)) = some ([0x8000000000000000, 0], 7) := by
  decide
theorem test_schoolbook : (schoolbook [M64] [M64] State.reset).map Prod.fst = some [1, 0xFFFFFFFFFFFFFFFE] := by decide

/-! ### Witnesses: for each statement with hypotheses, a case that meets them -/

/-- A block whose host is about to perform one action. -/
def about (act : HostAction) : State := State.reset.withProgram [act]

/-- A block that holds the results of ADC M64, 1, 0, with one action to come. -/
def afterAdc (act : HostAction) : State := ((onLines true 1 M64 1 0 0).complete 0 1).withProgram [act]

/-- A block halted by ADC 1, 2, 2, with one action to come. -/
def afterFault (act : HostAction) : State := ((onLines true 1 1 2 2 0).enterFault .carryRange 1).withProgram [act]

/-- ISSUE of ADC 1, 2, 0 as literals. -/
def issueAdc : HostAction := .issue 1 (.lit 1) (.lit 2) (.lit 0) (.lit 0)

theorem test_wit_CommandLineAssembles :
    ([.lit 1, .lit 2, .var "c"] : List Operand).length = Instr.arity .adc ∧ (["s", "c"] : List HostVar).length ≤ 2 := by decide
theorem test_wit_CommandLineAssembles_one_operand :
    ([.lit 1] : List Operand).length = Instr.arity .brev ∧ ([] : List HostVar).length ≤ 2 := by decide

theorem test_wit_StepRunsDecoded :
    (about issueAdc).program = issueAdc :: [] ∧ (about issueAdc).operand (.lit 1) = some 1 ∧
    (about issueAdc).operand (.lit 2) = some 2 ∧ (about issueAdc).operand (.lit 0) = some 0 ∧
    decode 1 = .command .adc := by decide

/-- Two blocks with nothing in common but build and operands; both answer. -/
theorem test_wit_ResultDependsOnOperandsOnly :
    let s := onLines true 1 M64 1 0 0
    let s' := { afterAdc .reset with portA := M64, portB := 1 }
    s.fault = false ∧ s'.fault = false ∧ s.checked = s'.checked ∧ s.indexBits = s'.indexBits ∧ s.portA = s'.portA ∧
    s.portB = s'.portB ∧ s.portC = s'.portC ∧ s.portD = s'.portD ∧
    seen (exec .adc s) = some (some 0, some 1, 1) ∧ seen (exec .adc s') = some (some 0, some 1, 1) := by decide

theorem test_wit_IgnoredPortsHaveNoEffect :
    let s := onLines true 6 5 0 0 0
    let s' := onLines true 6 5 M64 M64 M64
    s.SameBlock s' ∧ s'.portA = s.portA ∧ ¬ 2 ≤ Instr.arity .brev := by decide
theorem test_wit_IgnoredPortsHaveNoEffect_assembler : ([.lit 5] : List Operand).length = Instr.arity .brev := by decide

/-- Debug build with the largest carry in range; release build with any; and the smallest carry out of range. -/
theorem test_wit_AdcCommand :
    let s := onLines true 1 1 2 1 0
    s.fault = false ∧ (s.checked = false ∨ s.portC.toNat ≤ 1) ∧ s.portC.toNat ≤ 1 := by decide
theorem test_wit_AdcCommand_release :
    let s := onLines false 1 1 2 M64 0
    s.fault = false ∧ (s.checked = false ∨ s.portC.toNat ≤ 1) := by decide
theorem test_wit_AdcCommand_fault :
    let s := onLines true 1 1 2 2 0
    s.fault = false ∧ s.checked = true ∧ 1 < s.portC.toNat := by decide
theorem test_wit_AdcCarryIsOneBit : (1 : Word).toNat ≤ 1 := by decide

theorem test_wit_SbbCommand :
    let s := onLines true 2 5 3 1 0
    s.fault = false ∧ (s.checked = false ∨ s.portC.toNat ≤ 1) ∧ s.portC.toNat ≤ 1 := by decide
theorem test_wit_SbbCommand_release :
    let s := onLines false 2 5 3 2 0
    s.fault = false ∧ (s.checked = false ∨ s.portC.toNat ≤ 1) := by decide
theorem test_wit_SbbCommand_fault :
    let s := onLines true 2 5 3 2 0
    s.fault = false ∧ s.checked = true ∧ 1 < s.portC.toNat := by decide
/-- Negative and not: equal operands with and without a borrow. -/
theorem test_wit_SbbBorrowIsSign :
    let s := onLines true 2 3 3 1 0
    s.fault = false ∧ s.portC.toNat ≤ 1 ∧ (s.portA.toNat : Int) - s.portB.toNat - s.portC.toNat < 0 := by decide
theorem test_wit_SbbBorrowIsSign_zero :
    let s := onLines true 2 3 3 0 0
    s.fault = false ∧ s.portC.toNat ≤ 1 ∧ 0 ≤ (s.portA.toNat : Int) - s.portB.toNat - s.portC.toNat := by decide

theorem test_wit_MacCommand : (onLines true 3 M64 M64 M64 M64).fault = false := by decide

theorem test_wit_MasCommand :
    let s := onLines true 4 5 1 5 0
    s.fault = false ∧ (s.checked = false ∨ s.portD.toNat ≤ 1) ∧
    s.portB.toNat * s.portC.toNat + s.portD.toNat ≤ s.portA.toNat := by decide
theorem test_wit_MasCommand_release :
    let s := onLines false 4 0 M64 M64 M64
    s.fault = false ∧ (s.checked = false ∨ s.portD.toNat ≤ 1) := by decide
theorem test_wit_MasCommand_fault :
    let s := onLines true 4 0 M64 M64 2
    s.fault = false ∧ s.checked = true ∧ 1 < s.portD.toNat := by decide
/-- b·c + borrow_in one above and exactly at a + 2^64. -/
theorem test_wit_MasBorrowCountRange :
    let s := onLines true 4 0 2 0x8000000000000000 0
    s.fault = false ∧ (s.checked = false ∨ s.portD.toNat ≤ 1) ∧
    s.portB.toNat * s.portC.toNat + s.portD.toNat = s.portA.toNat + 2 ^ 64 := by decide
theorem test_wit_MasBorrowCountRange_above :
    let s := onLines true 4 0 2 0x8000000000000000 1
    s.fault = false ∧ (s.checked = false ∨ s.portD.toNat ≤ 1) ∧
    s.portB.toNat * s.portC.toNat + s.portD.toNat = s.portA.toNat + 2 ^ 64 + 1 := by decide
theorem test_wit_NegatedUpperLimbIsBorrowCount :
    (1 : DWord).toNat ≤ 2 ^ 128 - 2 ^ 64 ∧
    ((0 : Word).toNat : Int) - (1 : DWord).toNat = M64.toNat - (1 : Word).toNat * 2 ^ 64 := by decide

/-- DIV's five cases: hi just below the divisor, hi equal to it in both builds, divisor 0 in both builds. -/
theorem test_wit_DivCommand :
    let s := onLines true 5 M64 (M64 - 1) M64 0
    s.fault = false ∧ s.portC ≠ 0 ∧ s.portB.toNat < s.portC.toNat := by decide
theorem test_wit_DivCommand_truncated :
    let s := onLines false 5 0 1 1 0
    s.fault = false ∧ s.checked = false ∧ s.portC ≠ 0 ∧ s.portC.toNat ≤ s.portB.toNat := by decide
theorem test_wit_DivCommand_release_zero :
    let s := onLines false 5 5 3 0 0
    s.fault = false ∧ s.checked = false ∧ s.portC = 0 := by decide
theorem test_wit_DivCommand_div_zero :
    let s := onLines true 5 5 0 0 0
    s.fault = false ∧ s.checked = true ∧ s.portC = 0 := by decide
theorem test_wit_DivCommand_overflow :
    let s := onLines true 5 0 1 1 0
    s.fault = false ∧ s.checked = true ∧ s.portC ≠ 0 ∧ s.portC.toNat ≤ s.portB.toNat := by decide
theorem test_wit_DivOverflowIffQuotientTooWide : (1 : Word) ≠ 0 := by decide

theorem test_wit_BrevCommand : (onLines true 6 5 0 0 0).fault = false := by decide
/-- A palindromic bit string, the hypothesis of BREV's fixed points. -/
theorem test_wit_BrevCommand_palindrome : ∀ i : Nat, i ≤ 63 → M64.getLsbD i = M64.getLsbD (63 - i) := by
  intro i h
  interval_cases i <;> rfl
theorem test_wit_BrevxCommand : (onLines true 7 3 0 0 0).fault = false ∧ (onLines true 7 3 0 0 0).indexBits = 64 := by decide
theorem test_wit_BrevxCommand_narrow :
    let s := (State.resetOf false 32).drive 7 3 0 0 0
    s.fault = false ∧ s.indexBits ≠ 64 := by decide
theorem test_wit_ReversalIsInvolution : (3 : Nat) ≤ 64 ∧ (7 : Word).toNat < 2 ^ 3 := by decide
theorem test_wit_ReversalIsInvolution_full : (64 : Nat) ≤ 64 ∧ M64.toNat < 2 ^ 64 := by decide
theorem test_wit_ReducedIndexReversesLowBits : 1 ≤ (1 : Nat) ∧ (1 : Nat) ≤ 64 ∧ (1 : Word).toNat < 2 ^ 1 ∧ 0 < (1 : Nat) := by decide
theorem test_wit_ReducedIndexReversesLowBits_full : 1 ≤ (64 : Nat) ∧ (64 : Nat) ≤ 64 ∧ M64.toNat < 2 ^ 64 ∧ 63 < (64 : Nat) := by
  decide
theorem test_wit_ZeroOperands :
    let s := onLines true 1 0 0 0 0
    s.fault = false ∧ s.portA = 0 ∧ s.portB = 0 ∧ s.portC = 0 ∧ s.portD = 0 := by decide
theorem test_wit_ZeroOperands_div :
    let s := onLines true 5 0 0 1 0
    s.fault = false ∧ s.portA = 0 ∧ s.portB = 0 ∧ s.portC ≠ 0 := by decide
theorem test_wit_PseudoInstructions : State.reset.fault = false ∧ (10 : Word) ≠ 0 := by decide

theorem test_wit_IllegalWordsFault :
    let act := HostAction.issue 8 (.lit 0) (.lit 0) (.lit 0) (.lit 0)
    (about act).program = act :: [] ∧ (about act).operand (.lit 0) = some 0 ∧ (about act).fault = false ∧
    (8 : CmdBits) ≠ encode .adc ∧ (8 : CmdBits) ≠ encode .sbb ∧ (8 : CmdBits) ≠ encode .mac ∧ (8 : CmdBits) ≠ encode .mas ∧
    (8 : CmdBits) ≠ encode .div ∧ (8 : CmdBits) ≠ encode .brev ∧ (8 : CmdBits) ≠ encode .brevx := by decide
theorem test_wit_FaultTable_illegal : (onLines false 0 0 0 0 0).fault = false ∧ decode (onLines false 0 0 0 0 0).cmd = .illegal .unassignedOpcode := by
  decide
theorem test_wit_FaultTable_adc :
    let s := onLines true 1 0 0 2 0
    s.fault = false ∧ decode s.cmd = .command .adc ∧ s.checked = true ∧ 1 < s.portC.toNat := by decide
theorem test_wit_FaultTable_sbb :
    let s := onLines true 2 0 0 2 0
    s.fault = false ∧ decode s.cmd = .command .sbb ∧ s.checked = true ∧ 1 < s.portC.toNat := by decide
theorem test_wit_FaultTable_mas :
    let s := onLines true 4 0 0 0 2
    s.fault = false ∧ decode s.cmd = .command .mas ∧ s.checked = true ∧ 1 < s.portD.toNat := by decide
theorem test_wit_FaultTable_div_zero :
    let s := onLines true 5 0 0 0 0
    s.fault = false ∧ decode s.cmd = .command .div ∧ s.checked = true ∧ s.portC = 0 := by decide
theorem test_wit_FaultTable_div_overflow :
    let s := onLines true 5 0 1 1 0
    s.fault = false ∧ decode s.cmd = .command .div ∧ s.checked = true ∧ s.portC ≠ 0 ∧ s.portC.toNat ≤ s.portB.toNat := by decide
theorem test_wit_FaultTable_brevx :
    let s := (State.resetOf true 32).drive 7 0 0 0 0
    s.fault = false ∧ decode s.cmd = .command .brevx ∧ s.indexBits ≠ 64 := by decide
/-- A command that faults, for the statements about a faulting `issueCommand`. -/
theorem test_wit_FaultsArePrecise :
    let s := onLines true 1 0 0 2 0
    s.fault = false ∧ seen (issueCommand s) = some (none, none, 0x0000000100000022) := by decide
theorem test_wit_FaultsArePrecise_halted : (afterFault issueAdc).fault = true := by decide
theorem test_wit_LimbCommandsOnlyPreconditionFaults :
    (onLines false 1 0 0 2 0).fault = false ∧ (onLines false 1 0 0 2 0).checked = false ∧
    (onLines true 1 0 0 2 0).fault = false ∧ (onLines true 1 0 0 2 0).checked = true := by decide

theorem test_wit_HaltedIgnoresCommands :
    (afterFault issueAdc).fault = true ∧ (afterFault issueAdc).program = issueAdc :: [] ∧
    (afterFault issueAdc).operand (.lit 1) = some 1 ∧ (afterFault issueAdc).operand (.lit 2) = some 2 ∧
    (afterFault issueAdc).operand (.lit 0) = some 0 ∧
    seen (step (afterFault issueAdc)) = some (none, none, 0x0000000100000022) := by decide
theorem test_wit_HaltedIgnoresCommands_read :
    let s := afterFault (.read 2 "st")
    s.fault = true ∧ s.program = .read 2 "st" :: [] ∧ 2 ≤ (2 : BitVec 8).toNat := by decide

theorem test_wit_FirstFaultIsKept :
    (∃ t, step (afterFault issueAdc) = .next t) ∧ (∀ rest, (afterFault issueAdc).program ≠ .reset :: rest) ∧
    (afterFault issueAdc).fault = true :=
  ⟨⟨_, rfl⟩, fun _ h => (by cases h), rfl⟩
theorem test_wit_FirstFaultIsKept_reset : (afterFault .reset).program = .reset :: [] := by decide
/-- From not halted to halted: the host issues ADC 1, 2, 2. -/
theorem test_wit_FirstFaultIsKept_new :
    let s := about (.issue 1 (.lit 1) (.lit 2) (.lit 2) (.lit 0))
    s.fault = false ∧ seen (step s) = some (none, none, 0x0000000100000022) ∧ ∀ rest, s.program ≠ .reset :: rest :=
  ⟨rfl, by decide, fun _ h => by cases h⟩

theorem test_wit_ValidBitRule_issue :
    (about issueAdc).program = issueAdc :: [] ∧ (about issueAdc).fault = false ∧
    seen (step (about issueAdc)) = some (some 3, some 0, 1) := by decide
theorem test_wit_ValidBitRule_halted :
    (afterFault issueAdc).fault = true ∧ (afterFault issueAdc).LegalStatus ∧ ∃ t, step (afterFault issueAdc) = .next t :=
  ⟨rfl, by decide, ⟨_, rfl⟩⟩
theorem test_wit_ValidBitRule_reset : (about .reset).program = .reset :: [] := by decide
theorem test_wit_ValidBitRule_other :
    (∃ t, step (about (.read 2 "st")) = .next t) ∧ (∀ rest, (about (.read 2 "st")).program ≠ .reset :: rest) ∧
    ∀ w oa ob oc od rest, (about (.read 2 "st")).program ≠ .issue w oa ob oc od :: rest :=
  ⟨⟨_, rfl⟩, fun _ h => (by cases h), fun _ _ _ _ _ _ h => by cases h⟩

/-- A legal state and a step from it: for StatusRegister, ConfigRegister, StepKeepsInv and OnlyVouchedResultsObserved. -/
theorem test_wit_StepKeepsInv : (afterAdc (.bind "s" (some "c"))).Inv ∧ ∃ t, step (afterAdc (.bind "s" (some "c"))) = .next t :=
  ⟨⟨by decide, by decide, by decide, fun h => by cases h⟩, ⟨_, rfl⟩⟩
theorem test_wit_StepKeepsInv_halted : (afterFault issueAdc).Inv ∧ ∃ t, step (afterFault issueAdc) = .next t :=
  ⟨⟨by decide, by decide, by decide, fun _ => .inr (.inl ⟨rfl, by decide, rfl⟩)⟩, ⟨_, rfl⟩⟩
theorem test_wit_StatusRegister :
    (afterFault (.read 2 "st")).LegalStatus ∧ ∃ t, step (afterFault (.read 2 "st")) = .next t := ⟨by decide, ⟨_, rfl⟩⟩
theorem test_wit_ConfigRegister : ∃ t, step (afterFault .reset) = .next t := ⟨_, rfl⟩
theorem test_wit_InvAtReset : (255 : BitVec 8) ≠ 0 := by decide

theorem test_wit_HostReadsAndWrites :
    (afterAdc (.write 2 (.lit 7))).valid = true ∧ (afterAdc (.write 2 (.lit 7))).program = .write 2 (.lit 7) :: [] ∧
    (afterAdc (.write 2 (.lit 7))).operand (.lit 7) = some 7 ∧ 4 ≤ (4 : BitVec 8).toNat := by decide
theorem test_wit_HostReadsAndWrites_read :
    (afterAdc (.read 0 "s")).program = .read 0 "s" :: [] ∧ ∃ t, step (afterAdc (.read 0 "s")) = .next t := ⟨rfl, ⟨_, rfl⟩⟩
theorem test_wit_HostReadsAndWrites_bind :
    (afterAdc (.bind "s" none)).program = .bind "s" none :: [] ∧ ∃ t, step (afterAdc (.bind "s" none)) = .next t := ⟨rfl, ⟨_, rfl⟩⟩

theorem test_wit_NoValueWhileNotValid :
    (about (.read 0 "s")).valid = false ∧ (about (.read 0 "s")).program = .read 0 "s" :: [] := by decide
theorem test_wit_NoValueWhileNotValid_after_fault :
    (afterFault (.read 1 "c")).valid = false ∧ (afterFault (.read 1 "c")).program = .read 1 "c" :: [] := by decide
theorem test_wit_ReadBindsRegisterValue :
    (afterAdc (.read 1 "c")).program = .read 1 "c" :: [] ∧ (afterAdc (.read 1 "c")).readReg 1 = some 1 := by decide
theorem test_wit_BindingNeedsValid_two :
    let s := afterAdc (.bind "s" (some "c"))
    s.program = .bind "s" (some "c") :: [] ∧ s.valid = true ∧ s.out0 = some 0 ∧ s.out1 = some 1 ∧ "s" ≠ "c" := by decide
theorem test_wit_BindingNeedsValid_one :
    let s := afterAdc (.bind "s" none)
    s.program = .bind "s" none :: [] ∧ s.valid = true ∧ s.out0 = some 0 := by decide
theorem test_wit_BindingNeedsValid_not_valid :
    let s := afterFault (.bind "s" (some "c"))
    s.program = .bind "s" (some "c") :: [] ∧ s.valid = false := by decide
theorem test_wit_HostShift :
    let s := about (.shr (.lit 0x8000000000000000) 64 "j")
    s.program = .shr (.lit 0x8000000000000000) 64 "j" :: [] ∧ s.operand (.lit 0x8000000000000000) = some 0x8000000000000000 ∧
    64 ≤ (64 : Nat) := by decide
theorem test_wit_ResetEvent :
    (afterFault .reset).program = .reset :: [] ∧ (afterFault .reset).fault = true ∧
    seen (step (afterFault .reset)) = some (none, none, 0) := by decide
/-- A step that changes the block; and one with nothing left to do. -/
theorem test_wit_StateHeldUntilCommandOrReset :
    ∃ t, step (about issueAdc) = .next t ∧ ¬ (about issueAdc).SameBlock t := ⟨_, rfl, fun h => by cases h.1⟩
theorem test_wit_StateHeldUntilCommandOrReset_idle : State.reset.program = [] := by decide
theorem test_wit_OnlyVouchedResultsObserved :
    ∃ t, step (afterAdc (.read 1 "c")) = .next t ∧ t.observed = [(1, 1)] := ⟨_, rfl, by decide⟩
theorem test_wit_VariableBinding : ("c" : HostVar) ≠ "s" := by decide
theorem test_wit_RunEndsWithLastAction :
    (about issueAdc).program.length ≤ 1 ∧ ∃ t, Host.Core.run core 1 (about issueAdc) = .next t := ⟨by decide, ⟨_, rfl⟩⟩
theorem test_wit_StopsOnlyForHostFaults_read :
    (about (.read 0 "s")).ResultsTogether ∧ step (about (.read 0 "s")) = .fault .readWithoutValue := ⟨by decide, rfl⟩
theorem test_wit_StopsOnlyForHostFaults_operand :
    let s := about (.shr (.var "x") 1 "y")
    s.ResultsTogether ∧ s.program = .shr (.var "x") 1 "y" :: [] ∧ .var "x" ∈ HostAction.operands (.shr (.var "x") 1 "y") ∧
    s.operand (.var "x") = none ∧ step s = .fault .unboundVariable := ⟨by decide, rfl, by decide, rfl, rfl⟩
theorem test_wit_InstancesShareNothing :
    ∃ after, stepInstance 1 [State.reset, about issueAdc] = .next after ∧ (0 : Nat) ≠ 1 := ⟨_, rfl, by decide⟩
theorem test_wit_AddChainIsExact : State.reset.fault = false ∧ ([(M64, 1), (M64, 0)] : List (Word × Word)).length = 2 := by decide
theorem test_wit_SubChainIsExact : (afterAdc .reset).fault = false := by decide
theorem test_wit_SchoolbookIsExact : (onLines false 0 0 0 0 0).fault = false := by decide
theorem test_wit_DivChainIsExact : State.reset.fault = false ∧ (10 : Word) ≠ 0 := by decide

end Sys2Proof.Machine
end

section
/-! Proofs about the block's registers and state (10_state.md). First the rules: the word on CMD is the word of its command, what
an issued command can do to the block, what a step can do to the block, and the fields of STATUS and CONFIG. Then the statements,
each a short use of these rules. -/

namespace Sys2Proof.Machine

/-! ### The word on CMD (R51, R55) -/

/-- The OPC map of R55 is one to one: a command's OPC is the only one that stands for it. -/
theorem opcode_of_instrOfOpcode {opc : BitVec 8} {i : Instr} (h : instrOfOpcode opc = some i) : opcode i = opc := by
  unfold instrOfOpcode at h
  split at h <;> cases h
  all_goals exact BitVec.eq_of_toNat_eq (Eq.symm ‹opc.toNat = _›)

/-- A word is its two fields put together (R51). -/
theorem commandWord_bits_ofBits (w : CmdBits) : (CommandWord.ofBits w).bits = w := by
  simp only [CommandWord.bits, CommandWord.ofBits]
  rw [BitVec.extractLsb'_append_extractLsb'_eq_extractLsb' (by rfl)]
  exact BitVec.extractLsb'_eq_self

/-- A command has one word (R55): what decodes to it is what it encodes to. -/
theorem encode_of_decode {w : CmdBits} {i : Instr} (h : decode w = .command i) : encode i = w := by
  simp only [decode] at h
  split at h
  case isTrue hrsv =>
    split at h
    case h_1 j hj =>
      injection h with h
      subst h
      rw [encode, opcode_of_instrOfOpcode hj, ← hrsv]
      exact commandWord_bits_ofBits w
    case h_2 => cases h
  case isFalse => cases h

/-! ### An issued command -/

/-- Whatever word is on CMD, the block performs the common step with that word as the one a fault records (R31, R66). -/
theorem issueCommand_eq_perform_cmd (s : State) : ∃ r, issueCommand s = s.perform s.cmd r := by
  obtain ⟨r, hr⟩ := issueCommand_eq s
  refine ⟨r, hr.trans ?_⟩
  cases hd : decode s.cmd with
  | command i => simp only [encode_of_decode hd]
  | illegal why => rfl

/-- The command on the lines is ignored, completes, or faults recording the word on CMD. -/
theorem issueCommand_cases {s t : State} (h : issueCommand s = .next t) :
    (s.fault = true ∧ t = s) ∨
      (s.fault = false ∧ ∃ v0 v1, t = s.complete v0 v1) ∨
      (s.fault = false ∧ ∃ c, t = s.enterFault c s.cmd) := by
  obtain ⟨r, hr⟩ := issueCommand_eq_perform_cmd s
  rcases perform_cases s t s.cmd r (hr ▸ h) with hhalt | ⟨hf, v0, v1, -, ht⟩ | ⟨hf, c, -, ht⟩
  · exact .inl hhalt
  · exact .inr (.inl ⟨hf, v0, v1, ht⟩)
  · exact .inr (.inr ⟨hf, c, ht⟩)

/-- The computation of a command looks at the build and the operand ports alone (R34). -/
theorem resultOf_congr (i : Instr) {s s' : State} (hchecked : s.checked = s'.checked)
    (hindexBits : s.indexBits = s'.indexBits) (hA : s.portA = s'.portA) (hB : s.portB = s'.portB)
    (hC : s.portC = s'.portC) (hD : s.portD = s'.portD) : resultOf i s = resultOf i s' := by
  simp only [resultOf, hchecked, hindexBits, hA, hB, hC, hD]

/-- Settles O7: both blocks perform the common step with the same word and the same result, `resultOf_congr`. -/
theorem resultDependsOnOperandsOnly : Obligations.ResultDependsOnOperandsOnly := by
  intro i s s' t t' hf hf' hchecked hindexBits hA hB hC hD ht ht'
  have hr := resultOf_congr i hchecked hindexBits hA hB hC hD
  cases hres : resultOf i s with
  | ok v0 v1 =>
    rw [exec_of_ok hf hres] at ht
    rw [exec_of_ok hf' (hr ▸ hres)] at ht'
    cases ht
    cases ht'
    simp [hf, hf']
  | fault c =>
    rw [exec_of_fault hf hres] at ht
    rw [exec_of_fault hf' (hr ▸ hres)] at ht'
    cases ht
    cases ht'
    simp

/-! ### What a step does to the block -/

theorem sameBlock_refl (s : State) : s.SameBlock s := by simp [State.SameBlock]

/-- Taking an action from the host's program and driving the lines leaves the block as it is. -/
theorem sameBlock_withProgram_drive (s : State) (rest : List HostAction) (w : CmdBits) (a b c d : Word) :
    s.SameBlock ((s.withProgram rest).drive w a b c d) := by
  simp [State.SameBlock]

/-- A step that resets answers the reset block (R140). -/
theorem step_reset {s : State} {rest : List HostAction} (h : s.program = .reset :: rest) :
    step s = .next (s.withProgram rest).resetBlock :=
  step_action s _ _ h

/-- What a step does to the block: nothing; a reset; or, if the block is not halted, an issued word `w` completes or faults,
recording `w`, on the same block `u` with the lines driven. -/
theorem step_block_cases {s t : State} (h : step s = .next t) :
    (s.SameBlock t ∧ (∀ rest, s.program ≠ .reset :: rest) ∧
      (s.fault = true ∨ ∀ w oa ob oc od rest, s.program ≠ .issue w oa ob oc od :: rest)) ∨
    (∃ rest, s.program = .reset :: rest ∧ t = (s.withProgram rest).resetBlock) ∨
    (s.fault = false ∧ ∃ w oa ob oc od rest u, s.program = .issue w oa ob oc od :: rest ∧ s.SameBlock u ∧
      ((∃ v0 v1, t = u.complete v0 v1) ∨ ∃ c, t = u.enterFault c w)) := by
  rcases step_cases h with ⟨hp, rfl⟩ | hreset | ⟨w, oa, ob, oc, od, rest, a, b, c, d, hp, -, -, -, -, hi⟩ |
    ⟨act, rest, hp, hissue, hreset, -, hsame⟩
  · exact .inl ⟨sameBlock_refl _, by simp [hp], .inr (by simp [hp])⟩
  · exact .inr (.inl hreset)
  · have hsame := sameBlock_withProgram_drive s rest w a b c d
    rcases issueCommand_cases hi with ⟨hf, rfl⟩ | ⟨hf, hv⟩ | ⟨hf, hc⟩
    · exact .inl ⟨hsame, by simp [hp], .inl hf⟩
    · exact .inr (.inr ⟨hf, w, oa, ob, oc, od, rest, _, hp, hsame, .inl hv⟩)
    · exact .inr (.inr ⟨hf, w, oa, ob, oc, od, rest, _, hp, hsame, .inr hc⟩)
  · exact .inl ⟨hsame, by simp [hp, hreset], .inr (by simp [hp, hissue])⟩

/-- Settles O30: by the cases of a step, only a faulting command writes CAUSE and FCMD, and only where FAULT was 0. -/
theorem firstFaultIsKept : Obligations.FirstFaultIsKept := by
  refine ⟨fun s t h hnoReset => ?_, fun s rest hp => ⟨_, step_reset hp, by simp⟩⟩
  rcases step_block_cases h with ⟨⟨-, -, -, hfault, hcause, hfcmd, -⟩, -⟩ | ⟨rest, hp, -⟩ |
    ⟨hf, w, oa, ob, oc, od, rest, u, hp, ⟨-, -, -, hfault, hcause, hfcmd, -⟩, ⟨v0, v1, rfl⟩ | ⟨c, rfl⟩⟩
  · exact ⟨fun hf => ⟨hfault.trans hf, hcause, hfcmd⟩, fun hf ht => by simp [hfault, hf] at ht,
      fun _ _ => ⟨hcause, hfcmd⟩⟩
  · exact absurd hp (hnoReset rest)
  · simp [hf, hfault, hcause, hfcmd]
  · exact ⟨by simp [hf], fun _ _ => ⟨w, oa, ob, oc, od, rest, hp, rfl⟩, by simp⟩

/-- Settles O31: by the cases of a step, an issued word completes, faults, or is ignored by a halted block. -/
theorem validBitRule : Obligations.ValidBitRule := by
  refine ⟨fun s t w oa ob oc od rest hp h => ?_, fun s rest hp => ⟨_, step_reset hp, by simp⟩,
    fun s t h hnoReset hnoIssue => ?_⟩
  · rcases step_block_cases h with ⟨⟨-, -, hvalid, -⟩, -, hhalt⟩ | ⟨rest', hp', -⟩ |
      ⟨hf, w', oa', ob', oc', od', rest', u, -, ⟨-, -, -, hfault, -⟩, ⟨v0, v1, rfl⟩ | ⟨c, rfl⟩⟩
    · have hf : s.fault = true := hhalt.resolve_right fun hno => hno w oa ob oc od rest hp
      exact ⟨by simp [hf], by simp [hf], fun _ => ⟨hvalid, fun hlegal => hvalid.trans (hlegal.2 hf).1⟩⟩
    · simp [hp] at hp'
    · simp [hf, hfault]
    · simp [hf]
  · rcases step_block_cases h with ⟨⟨-, -, hvalid, -⟩, -⟩ | ⟨rest, hp, -⟩ |
      ⟨-, w, oa, ob, oc, od, rest, u, hp, -⟩
    · exact hvalid
    · exact absurd hp (hnoReset rest)
    · exact absurd hp (hnoIssue w oa ob oc od rest)

/-! ### Legal STATUS values (R26) -/

theorem causeCode_range (c : Cause) : 1 ≤ (causeCode c).toNat ∧ (causeCode c).toNat ≤ 6 := by
  cases c <;> decide

theorem legalStatus_of_sameBlock {s t : State} (h : s.SameBlock t) (hs : s.LegalStatus) : t.LegalStatus := by
  obtain ⟨-, -, hvalid, hfault, hcause, hfcmd, -⟩ := h
  simpa only [State.LegalStatus, hvalid, hfault, hcause, hfcmd] using hs

theorem legalStatus_resetBlock (s : State) : s.resetBlock.LegalStatus := by simp [State.LegalStatus]

theorem legalStatus_complete {s : State} (hf : s.fault = false) (hs : s.LegalStatus) (v0 v1 : Word) :
    (s.complete v0 v1).LegalStatus := by
  simpa [State.LegalStatus, hf] using hs

theorem legalStatus_enterFault (s : State) (c : Cause) (w : CmdBits) : (s.enterFault c w).LegalStatus := by
  simpa [State.LegalStatus] using causeCode_range c

/-- Every step keeps STATUS legal (R26). -/
theorem step_keeps_legalStatus {s t : State} (hs : s.LegalStatus) (h : step s = .next t) : t.LegalStatus := by
  rcases step_block_cases h with ⟨hsame, -⟩ | ⟨rest, -, rfl⟩ |
    ⟨hf, w, oa, ob, oc, od, rest, u, -, hsame, ⟨v0, v1, rfl⟩ | ⟨c, rfl⟩⟩
  · exact legalStatus_of_sameBlock hsame hs
  · exact legalStatus_resetBlock _
  · have hu : u.LegalStatus := legalStatus_of_sameBlock hsame hs
    obtain ⟨-, -, -, hfault, -⟩ := hsame
    exact legalStatus_complete (hfault.trans hf) hu v0 v1
  · exact legalStatus_enterFault u c w

/-! ### What the register numbers read as (R24, R26, R27) -/

theorem readReg_out0 (s : State) : s.readReg 0 = if s.valid then s.out0 else none := rfl

theorem readReg_out1 (s : State) : s.readReg 1 = if s.valid then s.out1 else none := rfl

theorem readReg_status (s : State) : s.readReg 2 = some (statusWord s) := rfl

theorem readReg_config (s : State) : s.readReg 3 = some (configWord s) := rfl

theorem readReg_of_four_le (s : State) {n : BitVec 8} (h : 4 ≤ n.toNat) : s.readReg n = some 0 := by
  unfold State.readReg
  split
  case h_5 => rfl
  all_goals omega

/-- Each field of STATUS in its place, the bits between them 0 (R26). -/
theorem statusWord_fields (s : State) :
    (statusWord s).getLsbD 0 = s.valid ∧ (statusWord s).getLsbD 1 = s.fault ∧ (statusWord s).extractLsb' 2 2 = 0 ∧
    (statusWord s).extractLsb' 4 4 = s.cause ∧ (statusWord s).extractLsb' 8 24 = 0 ∧
    (statusWord s).extractLsb' 32 32 = s.fcmd := by
  simp (disch := decide) only [statusWord, BitVec.getLsbD_append, BitVec.extractLsb'_append_eq_of_le,
    BitVec.extractLsb'_append_eq_of_add_le]
  simp

/-- Each field of CONFIG in its place, the other bits 0 (R27). -/
theorem configWord_fields (s : State) :
    (configWord s).getLsbD 0 = s.checked ∧ (configWord s).extractLsb' 1 7 = 0 ∧
    (configWord s).extractLsb' 8 8 = s.indexBits ∧ (configWord s).extractLsb' 16 48 = 0 := by
  simp (disch := decide) only [configWord, BitVec.getLsbD_append, BitVec.extractLsb'_append_eq_of_le,
    BitVec.extractLsb'_append_eq_of_add_le]
  simp

/-- STATUS is 0 after reset of any build (R26, R37). -/
theorem statusWord_resetOf (checked : Bool) (indexBits : BitVec 8) : statusWord (State.resetOf checked indexBits) = 0 := by
  simp only [statusWord, State.resetOf]
  decide

/-- Settles O32: the fields of the STATUS word, and `step_keeps_legalStatus`. -/
theorem statusRegister : Obligations.StatusRegister :=
  ⟨fun s => ⟨_, readReg_status s, statusWord_fields s⟩,
    fun c n => ⟨by simp [State.LegalStatus, State.resetOf], statusWord_resetOf c n⟩,
    fun _ _ => step_keeps_legalStatus⟩

/-- No step writes the build (R27). -/
theorem step_keeps_build {s t : State} (h : step s = .next t) : t.checked = s.checked ∧ t.indexBits = s.indexBits := by
  rcases step_block_cases h with ⟨⟨-, -, -, -, -, -, hbuild⟩, -⟩ | ⟨rest, -, rfl⟩ |
    ⟨-, w, oa, ob, oc, od, rest, u, -, ⟨-, -, -, -, -, -, hbuild⟩, ⟨v0, v1, rfl⟩ | ⟨c, rfl⟩⟩
  · exact hbuild
  · simp
  · simpa using hbuild
  · simpa using hbuild

/-- Settles O33: the fields of the CONFIG word, which holds the build alone, and `step_keeps_build`. -/
theorem configRegister : Obligations.ConfigRegister := by
  refine ⟨fun s => ⟨_, readReg_config s, configWord_fields s⟩, fun s t h => ?_⟩
  obtain ⟨hchecked, hindexBits⟩ := step_keeps_build h
  exact ⟨hchecked, hindexBits, by simp only [readReg_config, configWord, hchecked, hindexBits]⟩

/-! ### The host's reads and writes (R24, R32) -/

/-- A step whose next action neither resets nor issues leaves the block as it was. -/
theorem sameBlock_of_host_action {s t : State} {act : HostAction} {rest : List HostAction}
    (hp : s.program = act :: rest) (hreset : act ≠ .reset) (hissue : ∀ w a b c d, act ≠ .issue w a b c d)
    (h : step s = .next t) : s.SameBlock t := by
  rcases step_block_cases h with ⟨hsame, -⟩ | ⟨_, hp', -⟩ | ⟨-, w, oa, ob, oc, od, _, _, hp', -⟩
  · exact hsame
  · exact absurd (List.cons.inj (hp.symm.trans hp')).1 hreset
  · exact absurd (List.cons.inj (hp.symm.trans hp')).1 (hissue w oa ob oc od)

/-- Settles O34: the register map case by case, and no action but a reset or a command touches the block. -/
theorem hostReadsAndWrites : Obligations.HostReadsAndWrites := by
  refine ⟨fun s => ⟨fun hv => ?_, readReg_status s, readReg_config s, fun n => readReg_of_four_le s⟩,
    fun s t n x rest hp => ?_, fun s t x y rest hp => ?_, fun s n o v rest hp ho => ?_⟩
  · exact ⟨(readReg_out0 s).trans (if_pos hv), (readReg_out1 s).trans (if_pos hv)⟩
  · exact sameBlock_of_host_action hp (by simp) (by simp)
  · exact sameBlock_of_host_action hp (by simp) (by simp)
  · rw [step_action s _ _ hp]
    simp only [runAction, runWrite, operand_withProgram, ho, State.writeReg]

/-- OUT0 and OUT1 have no value while VALID = 0 (R32). -/
theorem readReg_out_of_not_valid {s : State} (hv : s.valid = false) {n : BitVec 8} (hn : n = 0 ∨ n = 1) :
    s.readReg n = none := by
  rcases hn with rfl | rfl
  · exact (readReg_out0 s).trans (if_neg (by simp [hv]))
  · exact (readReg_out1 s).trans (if_neg (by simp [hv]))

/-- The host's READ of a register that has no value is the host program's fault (R32). -/
theorem runRead_of_no_value {s : State} {n : BitVec 8} (h : s.readReg n = none) (x : HostVar) :
    runRead n x s = .fault .readWithoutValue := by
  simp only [runRead, rdata_setRegnum, h]

/-- Settles O35: a READ without a value stops, and a reset and a faulting command leave OUT0 and OUT1 as their rules say. -/
theorem noValueWhileNotValid : Obligations.NoValueWhileNotValid := by
  refine ⟨fun s hv => ⟨readReg_out_of_not_valid hv (.inl rfl), readReg_out_of_not_valid hv (.inr rfl)⟩,
    fun s n x rest hv hp hn => ?_, fun s rest hp => ⟨_, step_reset hp, by simp⟩, fun s t hf h ht => ?_⟩
  · rw [step_action s _ _ hp]
    exact runRead_of_no_value (s := s.withProgram rest) (readReg_out_of_not_valid hv hn) x
  · rcases issueCommand_cases h with ⟨hhalt, -⟩ | ⟨-, v0, v1, rfl⟩ | ⟨-, c, rfl⟩
    · simp [hf] at hhalt
    · simp [hf] at ht
    · simp

/-! ### Instances (R35) -/

/-- A step of block `k` changes nothing if there is no such block, and else puts that block's own next state in its place. -/
theorem stepInstance_cases {k : Nat} {blocks after : List State} (h : stepInstance k blocks = .next after) :
    (blocks[k]? = none ∧ after = blocks) ∨
      ∃ s t, blocks[k]? = some s ∧ step s = .next t ∧ after = blocks.set k t := by
  unfold stepInstance at h
  split at h
  case h_1 hk =>
    injection h with h
    exact .inl ⟨hk, h.symm⟩
  case h_2 s hk =>
    split at h
    case h_1 t ht =>
      injection h with h
      exact .inr ⟨s, t, hk, ht, h.symm⟩
    case h_2 => cases h
    case h_3 => cases h

/-- Settles O45: the list changes at position `k` alone. -/
theorem instancesShareNothing : Obligations.InstancesShareNothing := by
  intro k blocks after h
  rcases stepInstance_cases h with ⟨hk, rfl⟩ | ⟨s, t, hk, ht, rfl⟩
  · simp [hk]
  · obtain ⟨hlt, -⟩ := List.getElem?_eq_some_iff.mp hk
    refine ⟨List.length_set, fun j hj => List.getElem?_set_ne hj.symm, fun s' hs' => ?_⟩
    obtain rfl : s = s' := Option.some.inj (hk.symm.trans hs')
    exact ⟨t, ht, List.getElem?_set_self hlt⟩

end Sys2Proof.Machine
end

section
/-! Proofs about the encoding of the commands (30_encoding.md). First the rules: the decoder row by row, a step that issues a word,
which ports a command looks at, and what the limb commands compute when they do not fault. Then the statements, each a short use
of these rules. -/

namespace Sys2Proof.Machine

/-! ### The decoder, row by row (R55, R56) -/

/-- The word of a command decodes to it (R61). -/
@[simp] theorem decode_encode (i : Instr) : decode (encode i) = .command i := by
  cases i
  exacts [Laws.RoundTrip.adc.1, Laws.RoundTrip.sbb.1, Laws.RoundTrip.mac.1, Laws.RoundTrip.mas.1, Laws.RoundTrip.div.1,
    Laws.RoundTrip.brev.1, Laws.RoundTrip.brevx.1]

theorem decode_eq_command_iff {w : CmdBits} {i : Instr} : decode w = .command i ↔ w = encode i :=
  ⟨fun h => (encode_of_decode h).symm, fun h => h ▸ decode_encode i⟩

/-- The OPC values that stand for no command are 0 and those from 8 on (R55). -/
theorem instrOfOpcode_eq_none_iff {opc : BitVec 8} : instrOfOpcode opc = none ↔ opc = 0 ∨ 8 ≤ opc.toNat := by
  have hzero : opc = 0 ↔ opc.toNat = 0 := BitVec.toNat_inj.symm
  rw [hzero]
  unfold instrOfOpcode
  split
  case h_8 =>
    simp only [imp_false, true_iff] at *
    omega
  all_goals simp [*]

/-- The reserved bits are looked at first (R56). -/
theorem decode_of_rsv_ne_zero {w : CmdBits} (h : w.extractLsb' 8 24 ≠ 0) : decode w = .illegal .reservedBits :=
  if_neg h

/-- With the reserved bits 0, OPC decides (R56). -/
theorem decode_of_rsv_zero {w : CmdBits} (h : w.extractLsb' 8 24 = 0) :
    decode w = (instrOfOpcode (w.extractLsb' 0 8)).elim (.illegal .unassignedOpcode) .command := by
  refine (if_pos h).trans ?_
  simp only [CommandWord.ofBits]
  cases instrOfOpcode (w.extractLsb' 0 8) <;> rfl

theorem decode_eq_reservedBits_iff {w : CmdBits} :
    decode w = .illegal .reservedBits ↔ w.extractLsb' 8 24 ≠ 0 := by
  refine ⟨fun h hrsv => ?_, decode_of_rsv_ne_zero⟩
  rw [decode_of_rsv_zero hrsv] at h
  cases hi : instrOfOpcode (w.extractLsb' 0 8) with
  | none => simp [hi] at h
  | some i => simp [hi] at h

theorem decode_eq_unassignedOpcode_iff {w : CmdBits} :
    decode w = .illegal .unassignedOpcode ↔ w.extractLsb' 8 24 = 0 ∧ instrOfOpcode (w.extractLsb' 0 8) = none := by
  by_cases hrsv : w.extractLsb' 8 24 = 0
  · rw [decode_of_rsv_zero hrsv]
    cases instrOfOpcode (w.extractLsb' 0 8) <;> simp [hrsv]
  · exact iff_of_false (by simp [decode_of_rsv_ne_zero hrsv]) fun h => hrsv h.1

/-- A word that is no command's is illegal (R56). -/
theorem decode_illegal_of_ne_encode {w : CmdBits} (h : ∀ i, w ≠ encode i) : ∃ why, decode w = .illegal why := by
  cases hd : decode w with
  | command i => exact absurd (decode_eq_command_iff.mp hd) (h i)
  | illegal why => exact ⟨why, rfl⟩

/-- Settles O2: each row of the decoder by its own rule. -/
theorem decodeExactlyInvertsEncode : Obligations.DecodeExactlyInvertsEncode := fun _ =>
  ⟨fun _ => decode_eq_command_iff, decode_eq_reservedBits_iff,
    decode_eq_unassignedOpcode_iff.trans (and_congr_right fun _ => instrOfOpcode_eq_none_iff)⟩

/-- Settles O1: each pattern is the word of its command by computation, and the word of a command decodes to it. -/
theorem specPatternsDecode : Obligations.SpecPatternsDecode :=
  ⟨⟨rfl, decode_encode .adc⟩, ⟨rfl, decode_encode .sbb⟩, ⟨rfl, decode_encode .mac⟩, ⟨rfl, decode_encode .mas⟩,
    ⟨rfl, decode_encode .div⟩, ⟨rfl, decode_encode .brev⟩, ⟨rfl, decode_encode .brevx⟩⟩

/-! ### A step that issues a word (R50, R57) -/

/-- A step that issues a word whose operands have values drives the lines and performs the command on them (R50). -/
theorem step_issue {s : State} {w : CmdBits} {oa ob oc od : Operand} {rest : List HostAction} {a b c d : Word}
    (hp : s.program = .issue w oa ob oc od :: rest) (ha : s.operand oa = some a) (hb : s.operand ob = some b)
    (hc : s.operand oc = some c) (hd : s.operand od = some d) :
    step s = issueCommand ((s.withProgram rest).drive w a b c d) := by
  simp only [step_action s _ _ hp, runAction, runIssue, operand_withProgram, ha, hb, hc, hd]

/-- A block that is not halted faults on an illegal word, in both builds, recording the word (R57). -/
theorem issueCommand_of_illegal {s : State} {why : Illegal} (hf : s.fault = false) (h : decode s.cmd = .illegal why) :
    issueCommand s = .next (s.enterFault .illegalCommand s.cmd) := by
  simp only [issueCommand, h, perform_fault s s.cmd _ hf]

/-- BREVX faults INDEX_WIDTH unless INDEX_BITS = 64, in both builds (R102). -/
theorem brevxResult_of_ne {indexBits : BitVec 8} (h : indexBits ≠ 64) (x : Word) :
    brevxResult indexBits x = .fault .indexWidth :=
  if_pos h

/-- Settles O25: a word that is no command's is illegal, and an illegal word faults. -/
theorem illegalWordsFault : Obligations.IllegalWordsFault := by
  refine ⟨fun s w oa ob oc od rest a b c d hp ha hb hc hd hf hw => ?_, fun i => by cases i <;> decide,
    decode_encode .brevx, fun s hf hn => ?_⟩
  · obtain ⟨why, hwhy⟩ := decode_illegal_of_ne_encode hw
    exact ⟨_, (step_issue hp ha hb hc hd).trans (issueCommand_of_illegal hf hwhy), enterFault_faultedFrom _ _ w⟩
  · exact ⟨_, exec_of_fault hf (brevxResult_of_ne hn s.portA), enterFault_faultedFrom s .indexWidth _⟩

/-! ### The ports a command looks at (R54, R58) -/

/-- The computation of a command looks at the build and at the ports its operands are on. -/
theorem resultOf_congr_usedPorts (i : Instr) {s s' : State} (hchecked : s'.checked = s.checked)
    (hindexBits : s'.indexBits = s.indexBits) (hA : s'.portA = s.portA) (hB : 2 ≤ i.arity → s'.portB = s.portB)
    (hC : 3 ≤ i.arity → s'.portC = s.portC) (hD : 4 ≤ i.arity → s'.portD = s.portD) : resultOf i s' = resultOf i s := by
  cases i <;> simp_all [Instr.arity, resultOf]

/-- The common step leaves equal blocks equal: it looks at the lines only through the word and the result (R66). -/
theorem perform_sameBlock {s s' : State} (h : s.SameBlock s') (w : CmdBits) (r : CmdResult) :
    ∃ t t', s.perform w r = .next t ∧ s'.perform w r = .next t' ∧ t.SameBlock t' := by
  have ⟨hout0, hout1, hvalid, hfault, hcause, hfcmd, hbuild⟩ := h
  cases hf : s.fault with
  | true => exact ⟨s, s', perform_halted s w r hf, perform_halted s' w r (hfault.trans hf), h⟩
  | false =>
    cases r with
    | ok v0 v1 =>
      exact ⟨_, _, perform_ok s w v0 v1 hf, perform_ok s' w v0 v1 (hfault.trans hf), rfl, rfl, rfl, hfault, hcause, hfcmd,
        hbuild⟩
    | fault c =>
      exact ⟨_, _, perform_fault s w c hf, perform_fault s' w c (hfault.trans hf), hout0, hout1, rfl, rfl, rfl, rfl, hbuild⟩

/-- Settles O8: the common step of both blocks has one word and one result; and the assembler's default operand is 0. -/
theorem ignoredPortsHaveNoEffect : Obligations.IgnoredPortsHaveNoEffect := by
  refine ⟨fun i s s' hsame hA hB hC hD => ?_, fun i ops hlen => ⟨_, _, _, _, rfl, ?_, ?_, ?_⟩⟩
  · have ⟨_, _, _, _, _, _, hchecked, hindexBits⟩ := hsame
    rw [exec_eq_perform i s, exec_eq_perform i s', resultOf_congr_usedPorts i hchecked hindexBits hA hB hC hD]
    exact perform_sameBlock hsame _ _
  all_goals exact fun h => List.getD_eq_default _ _ (by omega)

/-! ### What the limb commands compute when they do not fault (R70, R74, R81, R86) -/

theorem outsideBit_of_le_one {v : Word} (h : v.toNat ≤ 1) : outsideBit v = false := by
  rw [outsideBit_eq, decide_eq_false_iff_not]
  omega

/-- ADC in the release build, or with a carry in range (R70, R73). -/
theorem adcResult_ok {k : Bool} {c : Word} (h : k = false ∨ c.toNat ≤ 1) (a b : Word) :
    adcResult k a b c = .ok (lowLimb (wide a + wide b + wide c)) (highLimb (wide a + wide b + wide c)) := by
  rcases h with rfl | hc
  · rfl
  · simp [adcResult, outsideBit_of_le_one hc]

/-- SBB in the release build, or with a borrow in range (R74, R77). -/
theorem sbbResult_ok {k : Bool} {c : Word} (h : k = false ∨ c.toNat ≤ 1) (a b : Word) :
    sbbResult k a b c = .ok (lowLimb (wide a - (wide b + wide c))) (borrowCount (wide a - (wide b + wide c))) := by
  rcases h with rfl | hc
  · rfl
  · simp [sbbResult, outsideBit_of_le_one hc]

/-- MAS in the release build, or with a borrow in range (R81, R84). -/
theorem masResult_ok {k : Bool} {d : Word} (h : k = false ∨ d.toNat ≤ 1) (a b c : Word) :
    masResult k a b c d =
      .ok (lowLimb (wide a - (wide b * wide c + wide d))) (borrowCount (wide a - (wide b * wide c + wide d))) := by
  rcases h with rfl | hd
  · rfl
  · simp [masResult, outsideBit_of_le_one hd]

/-- DIV by a divisor that is not 0, in the release build or with a quotient that fits (R86, R88). -/
theorem divResult_ok {k : Bool} {hi d : Word} (hd : d ≠ 0) (h : k = false ∨ hi.toNat < d.toNat) (lo : Word) :
    divResult k lo hi d =
      .ok (lowLimb ((hi ++ lo : DWord) / wide d)) (lowLimb ((hi ++ lo : DWord) % wide d)) := by
  rw [divResult, if_neg hd, if_neg]
  rcases h with rfl | h
  · simp
  · simp [BitVec.le_def, h]

/-! ### The low limb of the accumulator, by modular arithmetic (R14, R15) -/

@[simp] theorem wide_zero : wide 0 = 0 := rfl

@[simp] theorem lowLimb_wide (x : Word) : lowLimb (wide x) = x := by
  rw [← BitVec.toNat_inj, lowLimb_toNat, wide_toNat, Nat.mod_eq_of_lt x.isLt]

@[simp] theorem lowLimb_add (x y : DWord) : lowLimb (x + y) = lowLimb x + lowLimb y := by
  simp [← BitVec.toNat_inj, lowLimb_toNat]

@[simp] theorem lowLimb_mul (x y : DWord) : lowLimb (x * y) = lowLimb x * lowLimb y := by
  simp [← BitVec.toNat_inj, lowLimb_toNat, Nat.mul_mod]

@[simp] theorem lowLimb_sub (x y : DWord) : lowLimb (x - y) = lowLimb x - lowLimb y := by
  simp only [← BitVec.toNat_inj, lowLimb_toNat, BitVec.toNat_sub]
  omega

/-- A dividend of one limb is that limb (R15). -/
theorem zero_append_eq_wide (lo : Word) : ((0 : Word) ++ lo : DWord) = wide lo := by
  simp [← BitVec.toNat_inj, dividend_toNat]

theorem wide_div (x y : Word) : wide x / wide y = wide (x / y) := by
  simp [← BitVec.toNat_inj]

theorem wide_mod (x y : Word) : wide x % wide y = wide (x % y) := by
  simp [← BitVec.toNat_inj]

/-! ### The commands that the pseudo-instructions stand for (R60) -/

/-- ADD: the sum modulo 2^64, and its carry. -/
theorem adcResult_add (k : Bool) (a b : Word) :
    ∃ v, adcResult k a b 0 = .ok (a + b) v ∧ v.toNat = (a.toNat + b.toNat) / 2 ^ 64 := by
  refine ⟨_, (adcResult_ok (.inr (by simp)) a b).trans (congrArg₂ _ (by simp) rfl), ?_⟩
  rw [highLimb_toNat, adc_acc_toNat]
  rfl

/-- SUB: the difference modulo 2^64, and whether it is negative. -/
theorem sbbResult_sub (k : Bool) (a b : Word) :
    ∃ v, sbbResult k a b 0 = .ok (a - b) v ∧ v.toNat = if a.toNat < b.toNat then 1 else 0 := by
  refine ⟨_, (sbbResult_ok (.inr (by simp)) a b).trans (congrArg₂ _ (by simp) rfl), ?_⟩
  have hsub : (wide b + wide 0).toNat = b.toNat := sbb_sub_toNat b 0
  have hexact := borrowCount_exact a (wide b + wide 0) (by omega)
  split <;> omega

/-- MUL and MULADD: the exact result in two limbs, for any carry (R78). -/
theorem macResult_exact (a b c d : Word) :
    ∃ v0 v1, macResult a b c d = .ok v0 v1 ∧
      a.toNat + b.toNat * c.toNat + d.toNat = v1.toNat * 2 ^ 64 + v0.toNat :=
  ⟨_, _, rfl, (mac_acc_toNat a b c d).symm.trans (limbs_split _)⟩

/-- MULSUB: the difference modulo 2^64, and the number of 2^64 units borrowed. -/
theorem masResult_mulsub (k : Bool) (a b c : Word) :
    ∃ v, masResult k a b c 0 = .ok (a - b * c) v ∧
      (a.toNat : Int) - b.toNat * c.toNat = (a - b * c).toNat - v.toNat * 2 ^ 64 := by
  have hlow : lowLimb (wide a - (wide b * wide c + wide 0)) = a - b * c := by simp
  refine ⟨_, (masResult_ok (.inr (by simp)) a b c).trans (congrArg₂ _ hlow rfl), ?_⟩
  have hexact := borrowCount_exact a _ (mas_sub_le b c 0)
  rw [hlow, mas_sub_toNat] at hexact
  simpa using hexact

/-- DIV64: quotient and remainder of one limb by another. -/
theorem divResult_div64 (k : Bool) {d : Word} (hd : d ≠ 0) (n : Word) : divResult k n 0 d = .ok (n / d) (n % d) := by
  have hpos : (0 : Word).toNat < d.toNat := Nat.pos_of_ne_zero fun h => hd (BitVec.eq_of_toNat_eq h)
  rw [divResult_ok hd (.inr hpos), zero_append_eq_wide, wide_div, wide_mod, lowLimb_wide, lowLimb_wide]

/-- Settles O24: the expansions by definition, and the results of the six commands they stand for. -/
theorem pseudoInstructions : Obligations.PseudoInstructions := by
  refine ⟨fun x y z => ⟨rfl, rfl, rfl, rfl, rfl, rfl⟩, fun s a b c hf => ⟨?add, ?sub, ?mul, ?muladd, ?mulsub, ?div64⟩⟩
  case add =>
    obtain ⟨v, hr, hv⟩ := adcResult_add s.checked a b
    exact ⟨_, v, exec_of_ok hf hr, hf, rfl, rfl, hv⟩
  case sub =>
    obtain ⟨v, hr, hv⟩ := sbbResult_sub s.checked a b
    exact ⟨_, v, exec_of_ok hf hr, hf, rfl, rfl, hv⟩
  case mul =>
    obtain ⟨v0, v1, hr, hv⟩ := macResult_exact 0 b c 0
    exact ⟨_, v0, v1, exec_of_ok hf hr, hf, rfl, rfl, by simpa using hv⟩
  case muladd =>
    obtain ⟨v0, v1, hr, hv⟩ := macResult_exact a b c 0
    exact ⟨_, v0, v1, exec_of_ok hf hr, hf, rfl, rfl, by simpa using hv⟩
  case mulsub =>
    obtain ⟨v, hr, hv⟩ := masResult_mulsub s.checked a b c
    exact ⟨_, v, exec_of_ok hf hr, hf, rfl, rfl, hv⟩
  case div64 => exact fun hb => ⟨_, exec_of_ok hf (divResult_div64 s.checked hb a), hf, rfl, rfl⟩

end Sys2Proof.Machine
end

section
/-! Proofs about the limb commands (40_limb_arithmetic.md). First the rules: what a command leaves in the state once its
computation is known, and for ADC, SBB, MAS and DIV the exact identity of a completing computation and the conditions of each
fault. Then the statements, each a short use of these rules. -/

namespace Sys2Proof.Machine

/-! ### The state after a command whose computation is known (R66, R117) -/

theorem exec_completes {i : Instr} {s : State} {v0 v1 : Word} (hf : s.fault = false) (hr : resultOf i s = .ok v0 v1) :
    ∃ t, exec i s = .next t ∧ s.CompletedFrom t v0 v1 :=
  ⟨_, exec_of_ok hf hr, complete_completedFrom s v0 v1⟩

theorem exec_faults {i : Instr} {s : State} {c : Cause} (hf : s.fault = false) (hr : resultOf i s = .fault c) :
    ∃ t, exec i s = .next t ∧ s.FaultedFrom t (causeCode c) (encode i) :=
  ⟨_, exec_of_fault hf hr, enterFault_faultedFrom s c (encode i)⟩

/-! ### Operands outside a command's range, and a divisor of 0 (R70, R74, R84, R86, R89) -/

theorem outsideBit_of_one_lt {v : Word} (h : 1 < v.toNat) : outsideBit v = true := by
  rw [outsideBit_eq, decide_eq_true h]

theorem adcResult_carryRange {c : Word} (h : 1 < c.toNat) (a b : Word) : adcResult true a b c = .fault .carryRange :=
  if_pos (outsideBit_of_one_lt h)

theorem sbbResult_borrowRange {c : Word} (h : 1 < c.toNat) (a b : Word) : sbbResult true a b c = .fault .borrowRange :=
  if_pos (outsideBit_of_one_lt h)

theorem masResult_borrowRange {d : Word} (h : 1 < d.toNat) (a b c : Word) :
    masResult true a b c d = .fault .borrowRange :=
  if_pos (outsideBit_of_one_lt h)

theorem divResult_divZero (lo hi : Word) : divResult true lo hi 0 = .fault .divZero := rfl

theorem divResult_divOverflow {hi d : Word} (hd : d ≠ 0) (h : d.toNat ≤ hi.toNat) (lo : Word) :
    divResult true lo hi d = .fault .divOverflow := by
  rw [divResult, if_neg hd, if_pos]
  simp [BitVec.le_def, h]

/-- The release build answers a divisor of 0 with DivZeroResult, whatever it is (R89). -/
theorem divResult_zero_release (lo hi : Word) :
    divResult false lo hi 0 = .ok (Config.divZeroResult lo hi).1 (Config.divZeroResult lo hi).2 := rfl

/-! ### What a completing command computes, over the integers -/

/-- ADC: the sum of the operands, in two limbs (R70, R73). -/
theorem adcResult_exact {k : Bool} {c : Word} (h : k = false ∨ c.toNat ≤ 1) (a b : Word) :
    ∃ sum carry, adcResult k a b c = .ok sum carry ∧
      a.toNat + b.toNat + c.toNat = carry.toNat * 2 ^ 64 + sum.toNat :=
  ⟨_, _, adcResult_ok h a b, (adc_acc_toNat a b c).symm.trans (limbs_split _)⟩

/-- SBB: the difference of the operands, and the number of 2^64 units borrowed (R74, R77). -/
theorem sbbResult_exact {k : Bool} {c : Word} (h : k = false ∨ c.toNat ≤ 1) (a b : Word) :
    ∃ diff borrow, sbbResult k a b c = .ok diff borrow ∧
      (a.toNat : Int) - b.toNat - c.toNat = diff.toNat - borrow.toNat * 2 ^ 64 := by
  refine ⟨_, _, sbbResult_ok h a b, ?_⟩
  have hsub := sbb_sub_toNat b c
  have hexact := borrowCount_exact a (wide b + wide c) (by omega)
  omega

/-- MAS: the difference of the addend and the subtrahend, and the number of 2^64 units borrowed (R81, R84). -/
theorem masResult_exact {k : Bool} {d : Word} (h : k = false ∨ d.toNat ≤ 1) (a b c : Word) :
    ∃ diff borrow, masResult k a b c d = .ok diff borrow ∧
      (a.toNat : Int) - (b.toNat * c.toNat + d.toNat : Nat) = diff.toNat - borrow.toNat * 2 ^ 64 := by
  refine ⟨_, _, masResult_ok h a b c, ?_⟩
  rw [← mas_sub_toNat]
  exact borrowCount_exact a _ (mas_sub_le b c d)

/-- DIV: the quotient truncated to a limb and the exact remainder (R86, R88). -/
theorem divResult_exact {k : Bool} {hi d : Word} (hd : d ≠ 0) (h : k = false ∨ hi.toNat < d.toNat) (lo : Word) :
    ∃ q r, divResult k lo hi d = .ok q r ∧
      q.toNat = ((hi.toNat * 2 ^ 64 + lo.toNat) / d.toNat) % 2 ^ 64 ∧
      r.toNat = (hi.toNat * 2 ^ 64 + lo.toNat) % d.toNat := by
  refine ⟨_, _, divResult_ok hd h lo, ?_, ?_⟩
  · rw [lowLimb_toNat, BitVec.toNat_udiv, dividend_toNat, wide_toNat]
  · rw [lowLimb_toNat, BitVec.toNat_umod, dividend_toNat, wide_toNat]
    exact Nat.mod_eq_of_lt ((Nat.mod_lt _ (BitVec.toNat_pos_of_ne_zero hd)).trans d.isLt)

/-- A dividend whose upper limb is below the divisor has a quotient of one limb (R86). -/
theorem quotient_lt {hi d : Word} (h : hi.toNat < d.toNat) (lo : Word) :
    (hi.toNat * 2 ^ 64 + lo.toNat) / d.toNat < 2 ^ 64 := by
  rw [Nat.div_lt_iff_lt_mul (by omega)]
  omega

/-! ### The upper limb of SBB's wide subtraction (R74) -/

/-- Bit 127 of the accumulator is the top bit of its upper limb. -/
theorem getLsbD_127_eq (x : DWord) : x.getLsbD 127 = (highLimb x).getLsbD 63 := by
  simp [highLimb]

/-- A subtrahend of at most 2^64 borrows at most once, so the upper limb is 0 or all ones. -/
theorem highLimb_wide_sub (a : Word) {x : DWord} (hx : x.toNat ≤ 2 ^ 64) :
    highLimb (wide a - x) = 0 ∨ highLimb (wide a - x) = M64 := by
  have hhigh := highLimb_toNat (wide a - x)
  rw [wide_sub_toNat] at hhigh
  split at hhigh
  · exact .inl (BitVec.eq_of_toNat_eq (hhigh.trans (Nat.div_eq_of_lt (by omega))))
  · exact .inr (BitVec.eq_of_toNat_eq (hhigh.trans (by simp; omega)))

/-- Where the upper limb is 0 or all ones, its negation is its top bit. -/
theorem borrowCount_eq_topBit {x : DWord} (h : highLimb x = 0 ∨ highLimb x = M64) :
    borrowCount x = (BitVec.ofBool (x.getLsbD 127)).setWidth 64 := by
  rw [getLsbD_127_eq, borrowCount]
  rcases h with h | h <;> rw [h] <;> rfl

/-! ### The limb commands -/

/-- Settles O9: the identity of the sum fixes both limbs and bounds the carry; a carry above 1 faults in the debug build. -/
theorem adcCommand : Obligations.AdcCommand := by
  refine ⟨rfl, fun s hf hcarry => ?_, fun s hf hk hc => ?_, by decide, by decide⟩
  · obtain ⟨sum, carry, hr, hsum⟩ := adcResult_exact hcarry s.portA s.portB
    obtain ⟨t, ht, hdone⟩ := exec_completes (i := .adc) hf hr
    refine ⟨t, sum, carry, ht, hdone, hsum, fun hc => ?_, ?_, ?_, ?_⟩
    · bv_omega
    all_goals omega
  · exact exec_faults (i := .adc) hf (by rw [resultOf, hk, adcResult_carryRange hc])

/-- Settles O11: the identity of the difference bounds the borrow; with a borrow in range the subtrahend is at most 2^64, so the
upper limb is 0 or all ones; a borrow above 1 faults in the debug build. -/
theorem sbbCommand : Obligations.SbbCommand := by
  refine ⟨rfl, fun s hf hborrow => ?_, fun s hf hk hc => ?_, fun a b c hc => ?_, by decide, by decide, by decide⟩
  · obtain ⟨diff, borrow, hr, hdiff⟩ := sbbResult_exact hborrow s.portA s.portB
    obtain ⟨t, ht, hdone⟩ := exec_completes (i := .sbb) hf hr
    refine ⟨t, diff, borrow, ht, hdone, hdiff, ?_, ?_, fun hc => ?_⟩
    all_goals omega
  · exact exec_faults (i := .sbb) hf (by rw [resultOf, hk, sbbResult_borrowRange hc])
  · have hsub := sbb_sub_toNat b c
    have hhigh := highLimb_wide_sub a (x := wide b + wide c) (by omega)
    exact ⟨hhigh, borrowCount_eq_topBit hhigh⟩

/-- Settles O13: the accumulator holds the sum, and its two limbs are the results. -/
theorem macCommand : Obligations.MacCommand := by
  refine ⟨rfl, fun s hf => ⟨mul_add_add_le _ _ _ _, ?_⟩, by decide, by decide, by decide, by decide⟩
  obtain ⟨sum, carry, hr, hsum⟩ := macResult_exact s.portA s.portB s.portC s.portD
  obtain ⟨t, ht, hdone⟩ := exec_completes (i := .mac) hf hr
  exact ⟨t, sum, carry, ht, hdone, hsum⟩

/-- Settles O14: the identity of the difference fixes both limbs; a borrow above 1 faults in the debug build. -/
theorem masCommand : Obligations.MasCommand := by
  refine ⟨rfl, fun s hf hborrow => ⟨?_, ?_⟩, fun s hf hk hd => ?_, by decide, by decide⟩
  · rw [← mas_sub_toNat]
    exact mas_sub_le _ _ _
  · obtain ⟨diff, borrow, hr, hdiff⟩ := masResult_exact hborrow s.portA s.portB s.portC
    obtain ⟨t, ht, hdone⟩ := exec_completes (i := .mas) hf hr
    refine ⟨t, diff, borrow, ht, hdone, ?_, fun hle => ⟨?_, ?_⟩⟩
    · push_cast at hdiff
      omega
    · omega
    · bv_omega
  · exact exec_faults (i := .mas) hf (by rw [resultOf, hk, masResult_borrowRange hd])

/-- Settles O15: in the identity of the difference, the borrow is at most 1 exactly when the subtrahend exceeds the addend by
at most 2^64. -/
theorem masBorrowCountRange : Obligations.MasBorrowCountRange := by
  refine ⟨fun s hf hborrow => ?_, fun k => ⟨M64, by cases k <;> rfl⟩⟩
  obtain ⟨diff, borrow, hr, hdiff⟩ := masResult_exact hborrow s.portA s.portB s.portC
  refine ⟨_, borrow, exec_of_ok (i := .mas) hf hr, hf, rfl, ?_⟩
  omega

/-- Settles O17: quotient and remainder of the two-limb dividend, the quotient whole where hi < divisor; and one rule for each
of the other cases. -/
theorem divCommand : Obligations.DivCommand := by
  refine ⟨rfl, fun s hf hd hlt => ?_, fun s hf hk hd _ => ?_, fun s hf hk hd => ?_, fun s hf hk hd => ?_,
    fun s hf hk hd hle => ?_, by decide, by decide, by decide, by decide⟩
  · obtain ⟨q, r, hr, hq, hrem⟩ := divResult_exact hd (.inr hlt) s.portA
    obtain ⟨t, ht, hdone⟩ := exec_completes (i := .div) hf hr
    rw [Nat.mod_eq_of_lt (quotient_lt hlt s.portA)] at hq
    refine ⟨t, q, r, ht, hdone, ?_, ?_⟩
    · rw [hq, hrem, Nat.div_add_mod']
    · exact hrem ▸ Nat.mod_lt _ (by omega)
  · obtain ⟨q, r, hr, hq, hrem⟩ := divResult_exact hd (.inl hk) s.portA
    obtain ⟨t, ht, hdone⟩ := exec_completes (i := .div) hf hr
    exact ⟨t, q, r, ht, hdone, hq, hrem⟩
  · exact exec_completes (i := .div) hf (by rw [resultOf, hk, hd, divResult_zero_release])
  · exact exec_faults (i := .div) hf (by rw [resultOf, hk, hd, divResult_divZero])
  · exact exec_faults (i := .div) hf (by rw [resultOf, hk, divResult_divOverflow hd hle])

/-- The computation of a limb command faults in the debug build alone, with one of the codes 2 to 5 (R67). -/
theorem limb_fault_range {i : Instr} {s : State} {c : Cause} (hi : i = .adc ∨ i = .sbb ∨ i = .mac ∨ i = .mas ∨ i = .div)
    (h : resultOf i s = .fault c) : s.checked = true ∧ 2 ≤ (causeCode c).toNat ∧ (causeCode c).toNat ≤ 5 := by
  rcases resultOf_fault_cases i s c h with ⟨-, hk, -, rfl⟩ | ⟨-, hk, -, rfl⟩ | ⟨-, hk, -, rfl⟩ | ⟨-, hk, -, rfl⟩ |
    ⟨-, hk, -, -, rfl⟩ | ⟨rfl, -⟩
  on_goal 6 => simp at hi
  all_goals exact ⟨hk, by decide⟩

/-- Settles O27: a limb command completes, or its computation faults as `limb_fault_range` says. -/
theorem limbCommandsOnlyPreconditionFaults : Obligations.LimbCommandsOnlyPreconditionFaults := by
  intro i s hi hf
  cases hr : resultOf i s with
  | ok v0 v1 =>
    obtain ⟨t, ht, hdone⟩ := exec_completes hf hr
    exact ⟨fun _ => ⟨t, v0, v1, ht, hdone⟩, fun _ => ⟨t, ht, .inl ⟨v0, v1, hdone⟩⟩⟩
  | fault c =>
    obtain ⟨hk, hcode⟩ := limb_fault_range hi hr
    obtain ⟨t, ht, hfault⟩ := exec_faults hf hr
    exact ⟨fun hrel => by simp [hrel] at hk, fun _ => ⟨t, ht, .inr ⟨_, hfault, hcode⟩⟩⟩

end Sys2Proof.Machine
end

section
/-! Proofs about the bit-reversal commands (41_bit_reversal.md): the fixed points of the reversal, and BREVX where the build
offers it, as BREV; then the two commands, each by the rule for a computation that completes or faults. -/

namespace Sys2Proof.Machine

/-- A palindromic bit string is a fixed point of the reversal (R101). -/
theorem rev64_of_palindrome {x : Word} (h : ∀ i : Nat, i ≤ 63 → x.getLsbD i = x.getLsbD (63 - i)) : rev64 x = x := by
  refine BitVec.eq_of_getLsbD_eq fun i hi => ?_
  calc (rev64 x).getLsbD i
    _ = x.getLsbD (63 - i) := rev64_bit x i hi
    _ = x.getLsbD i := (h i (by omega)).symm

/-- Where INDEX_BITS = 64, BREVX computes what BREV does (R102). -/
theorem brevxResult_of_eq {indexBits : BitVec 8} (h : indexBits = 64) (x : Word) : brevxResult indexBits x = brevResult x :=
  if_neg (not_not_intro h)

/-- Settles O19: BREV always completes with the reversal, whose bits `rev64_bit` gives. -/
theorem brevCommand : Obligations.BrevCommand := by
  refine ⟨rfl, fun s hf => ?_, fun _ => rev64_of_palindrome, by decide, by decide, by decide, by decide, by decide⟩
  obtain ⟨t, ht, hdone⟩ := exec_completes (i := .brev) hf rfl
  exact ⟨t, rev64 s.portA, ht, hdone, fun i hi => rev64_bit s.portA i (by omega)⟩

/-- Settles O20: with INDEX_BITS = 64 both commands complete with one result; with any other BREVX's computation faults. -/
theorem brevxCommand : Obligations.BrevxCommand := by
  refine ⟨rfl, fun s hf h64 => ?_, fun s hf hne => ?_, by decide, by decide⟩
  · have hr : resultOf .brevx s = .ok (rev64 s.portA) 0 := brevxResult_of_eq h64 s.portA
    exact ⟨(exec_of_ok hf hr).trans (exec_of_ok (i := .brev) hf rfl).symm, exec_completes hf hr⟩
  · exact exec_faults (i := .brevx) hf (brevxResult_of_ne hne s.portA)

end Sys2Proof.Machine
end

section
/-! Proofs about faults and the halt (60_exceptions.md). First the rules: what the command on the lines does once its word is
decoded, the two ways it can fault, and what a READ that has a value leaves behind. Then the statements, each a short use of these
rules. -/

namespace Sys2Proof.Machine

/-! ### The command on the lines, its word decoded (R66, R110) -/

theorem issueCommand_of_command {s : State} {i : Instr} (h : decode s.cmd = .command i) : issueCommand s = exec i s := by
  simp only [issueCommand, h]

/-- A command whose computation faults records that fault with the word on CMD (R117). -/
theorem issueCommand_faults {s : State} {i : Instr} {c : Cause} (hf : s.fault = false) (hd : decode s.cmd = .command i)
    (hr : resultOf i s = .fault c) : ∃ t, issueCommand s = .next t ∧ s.FaultedFrom t (causeCode c) s.cmd := by
  rw [issueCommand_of_command hd, ← encode_of_decode hd]
  exact exec_faults hf hr

/-- A block that is not halted faults for one of two reasons: the word is illegal, or the command's computation faults. -/
theorem issueCommand_fault_cases {s t : State} (hf : s.fault = false) (h : issueCommand s = .next t)
    (ht : t.fault = true) :
    ((∃ why, decode s.cmd = .illegal why) ∧ t.cause = causeCode .illegalCommand) ∨
      ∃ i c, decode s.cmd = .command i ∧ resultOf i s = .fault c ∧ t.cause = causeCode c := by
  cases hd : decode s.cmd with
  | illegal why =>
    rw [issueCommand_of_illegal hf hd] at h
    cases h
    exact .inl ⟨⟨why, rfl⟩, rfl⟩
  | command i =>
    rw [issueCommand_of_command hd] at h
    cases hr : resultOf i s with
    | ok v0 v1 =>
      rw [exec_of_ok hf hr] at h
      cases h
      simp [hf] at ht
    | fault c =>
      rw [exec_of_fault hf hr] at h
      cases h
      exact .inr ⟨i, c, rfl, hr, rfl⟩

/-- Settles O26: each row's condition is a fault of its command's computation; conversely a fault is that of an illegal word or,
by `resultOf_fault_cases`, of one of the other rows. -/
theorem faultTable : Obligations.FaultTable := by
  refine ⟨fun s hf => ⟨?illegal, fun hd hk hC => ?adc, fun hd hk hC => ?sbb, fun hd hk hD => ?mas, fun hd hk hC => ?divZero,
    fun hd hk hC hle => ?divOverflow, fun hd hn => ?brevx⟩, fun s t hf h ht => ?converse⟩
  case illegal => exact fun ⟨_, hd⟩ => ⟨_, issueCommand_of_illegal hf hd, enterFault_faultedFrom s .illegalCommand s.cmd⟩
  case adc => exact issueCommand_faults hf hd (by rw [resultOf, hk, adcResult_carryRange hC])
  case sbb => exact issueCommand_faults hf hd (by rw [resultOf, hk, sbbResult_borrowRange hC])
  case mas => exact issueCommand_faults hf hd (by rw [resultOf, hk, masResult_borrowRange hD])
  case divZero => exact issueCommand_faults hf hd (by rw [resultOf, hk, hC, divResult_divZero])
  case divOverflow => exact issueCommand_faults hf hd (by rw [resultOf, hk, divResult_divOverflow hC hle])
  case brevx => exact issueCommand_faults hf hd (brevxResult_of_ne hn s.portA)
  case converse =>
    rcases issueCommand_fault_cases hf h ht with hillegal | ⟨i, c, hd, hr, hcause⟩
    · exact .inl hillegal
    · right
      rcases resultOf_fault_cases i s c hr with ⟨rfl, hk, hC, rfl⟩ | ⟨rfl, hk, hC, rfl⟩ | ⟨rfl, hk, hD, rfl⟩ |
        ⟨rfl, hk, hC, rfl⟩ | ⟨rfl, hk, hC, hle, rfl⟩ | ⟨rfl, hn, rfl⟩
      · exact .inl ⟨hd, hk, hC, hcause⟩
      · exact .inr (.inl ⟨hd, hk, hC, hcause⟩)
      · exact .inr (.inr (.inl ⟨hd, hk, hD, hcause⟩))
      · exact .inr (.inr (.inr (.inl ⟨hd, hk, hC, hcause⟩)))
      · exact .inr (.inr (.inr (.inr (.inl ⟨hd, hk, hC, hle, hcause⟩))))
      · exact .inr (.inr (.inr (.inr (.inr ⟨hd, hn, hcause⟩))))

/-- Settles O28: a faulting command is a fault entry with the word on CMD, which writes STATUS alone; and the common step enters a
fault exactly where FAULT was 0. -/
theorem faultsArePrecise : Obligations.FaultsArePrecise := by
  refine ⟨fun s t hf h ht => ?_, fun s c w hf => ⟨_, perform_fault s w c hf, enterFault_faultedFrom s c w⟩,
    fun s c w hf => perform_halted s w _ hf⟩
  rcases issueCommand_cases h with ⟨hhalt, -⟩ | ⟨-, v0, v1, rfl⟩ | ⟨-, c, rfl⟩
  · simp [hf] at hhalt
  · simp [hf] at ht
  · exact enterFault_faultedFrom s c s.cmd

/-! ### The halted block (R120) -/

theorem exec_halted {s : State} (hf : s.fault = true) (i : Instr) : exec i s = .next s := by
  rw [exec_eq_perform, perform_halted _ _ _ hf]

/-- Whatever word is on CMD, a halted block ignores it. -/
theorem issueCommand_halted {s : State} (hf : s.fault = true) : issueCommand s = .next s := by
  obtain ⟨r, hr⟩ := issueCommand_eq_perform_cmd s
  rw [hr, perform_halted _ _ _ hf]

/-! ### A READ that has a value (R24, R59) -/

/-- Every register but OUT0 and OUT1 reads as a value, whatever STATUS is (R24, R32). -/
theorem readReg_isSome_of_two_le (s : State) {n : BitVec 8} (h : 2 ≤ n.toNat) : ∃ v, s.readReg n = some v := by
  unfold State.readReg
  split
  case h_1 | h_2 => omega
  all_goals exact ⟨_, rfl⟩

/-- A step whose action is a READ of a register that has a value notes that value and binds it to the host's variable (R59). -/
theorem step_read {s : State} {n : BitVec 8} {x : HostVar} {rest : List HostAction} {v : Word}
    (hp : s.program = .read n x :: rest) (hv : s.readReg n = some v) :
    step s = .next ((((s.withProgram rest).setRegnum n).observe n v).setVar x v) := by
  have hrdata : ((s.withProgram rest).setRegnum n).rdata = some v := hv
  simp only [step_action s _ _ hp, runAction, runRead, hrdata]

/-- A name just bound has the value it was bound to (R59). -/
@[simp] theorem lookupVar_bindVar_same (x : HostVar) (v : Word) (l : List (HostVar × Word)) :
    lookupVar x (bindVar x v l) = some v := by
  induction l with
  | nil => simp [bindVar, lookupVar]
  | cons p rest ih =>
    obtain ⟨y, u⟩ := p
    by_cases h : x = y
    · simp [bindVar, lookupVar, h]
    · simp [bindVar, lookupVar, h, ih]

/-- Settles O29: a halted block ignores the common step; a READ of any register but OUT0 and OUT1 has a value, which it binds; and
by the cases of a step, a step of a halted block that changes it is a reset. -/
theorem haltedIgnoresCommands : Obligations.HaltedIgnoresCommands := by
  refine ⟨fun s i hf => exec_halted hf i, fun s w oa ob oc od rest a b c d hf hp ha hb hc hd => ?issue,
    fun s n x rest hf hp hn => ?read, fun s t hf h => ?leave⟩
  case issue => exact (step_issue hp ha hb hc hd).trans (issueCommand_halted hf)
  case read =>
    obtain ⟨v, hv⟩ := readReg_isSome_of_two_le s hn
    have hstep := step_read hp hv
    exact ⟨_, hstep, sameBlock_of_host_action hp (by simp) (by simp) hstep, by simp [hv]⟩
  case leave =>
    rcases step_block_cases h with ⟨hsame, -⟩ | ⟨rest, hp, -⟩ | ⟨hrun, -⟩
    · exact .inl hsame
    · exact .inr ⟨rest, hp⟩
    · simp [hf] at hrun

end Sys2Proof.Machine
end

section
/-! Proofs about reset (70_reset_and_hazards.md): what the block's registers read as after the RESET event, and which steps clear
STATUS.FAULT. -/

namespace Sys2Proof.Machine

/-- After the RESET event, from any state, STATUS reads as it does right after power-up reset: 0 (R37, R140). -/
theorem readReg_status_resetBlock (s : State) : s.resetBlock.readReg 2 = some 0 :=
  (readReg_status _).trans (congrArg some (statusWord_resetOf s.checked s.indexBits))

/-- The RESET event does not change CONFIG, which holds the build alone (R27, R140). -/
theorem readReg_config_resetBlock (s : State) : s.resetBlock.readReg 3 = s.readReg 3 := rfl

/-- Only a reset clears FAULT (R140): any other step of a halted block leaves the block as it is. -/
theorem reset_of_step_clears_fault {s t : State} (h : step s = .next t) (hs : s.fault = true) (ht : t.fault = false) :
    ∃ rest, s.program = .reset :: rest := by
  rcases step_block_cases h with ⟨⟨-, -, -, hfault, -⟩, -⟩ | ⟨rest, hp, -⟩ | ⟨hrun, -⟩
  · simp [hfault, hs] at ht
  · exact ⟨rest, hp⟩
  · simp [hs] at hrun

/-- Settles O39: a reset step answers the reset block, whose STATUS is 0 and whose CONFIG is the one before; and
`reset_of_step_clears_fault`. -/
theorem resetEvent : Obligations.ResetEvent := by
  refine ⟨fun s rest hp => ⟨_, step_reset hp, ?_⟩, fun s t => reset_of_step_clears_fault⟩
  have hstatus := readReg_status_resetBlock (s.withProgram rest)
  have hconfig := readReg_config_resetBlock (s.withProgram rest)
  exact ⟨rfl, rfl, rfl, rfl, rfl, rfl, hstatus, hconfig, rfl, rfl, rfl⟩

end Sys2Proof.Machine
end

section
/-! Proofs about the block's invariant (R26, R25, R11, R110). First the rules: each change the block can undergo keeps it, a new
fault being one that its command's computation, or the decoder, accounts for. Then the statements, by the cases of a step. -/

namespace Sys2Proof.Machine

/-! ### A recorded fault has its cause (R110) -/

/-- A fault of a command's computation is one that the command's word can raise on this build. -/
theorem faultExplained_of_resultOf {i : Instr} {s : State} {c : Cause} (h : resultOf i s = .fault c) :
    (s.enterFault c (encode i)).FaultExplained := by
  intro _
  rcases resultOf_fault_cases i s c h with ⟨rfl, hk, -, rfl⟩ | ⟨rfl, hk, -, rfl⟩ | ⟨rfl, hk, -, rfl⟩ | ⟨rfl, hk, -, rfl⟩ |
    ⟨rfl, hk, -, -, rfl⟩ | ⟨rfl, hn, rfl⟩
  · exact .inr (.inl ⟨rfl, rfl, hk⟩)
  · exact .inr (.inr (.inl ⟨rfl, .inl rfl, hk⟩))
  · exact .inr (.inr (.inl ⟨rfl, .inr rfl, hk⟩))
  · exact .inr (.inr (.inr (.inl ⟨rfl, rfl, hk⟩)))
  · exact .inr (.inr (.inr (.inr (.inl ⟨rfl, rfl, hk⟩))))
  · exact .inr (.inr (.inr (.inr (.inr ⟨rfl, rfl, hn⟩))))

theorem faultExplained_of_not_fault {s : State} (hf : s.fault = false) : s.FaultExplained :=
  fun ht => by simp [hf] at ht

/-- A block that is not halted records only a fault that the word on CMD accounts for. -/
theorem issueCommand_faultExplained {s t : State} (hf : s.fault = false) (h : issueCommand s = .next t) :
    t.FaultExplained := by
  cases hd : decode s.cmd with
  | illegal why =>
    rw [issueCommand_of_illegal hf hd] at h
    cases h
    exact fun _ => .inl ⟨why, rfl, hd⟩
  | command i =>
    rw [issueCommand_of_command hd] at h
    cases hr : resultOf i s with
    | ok v0 v1 =>
      rw [exec_of_ok hf hr] at h
      cases h
      exact faultExplained_of_not_fault hf
    | fault c =>
      rw [exec_of_fault hf hr] at h
      cases h
      exact faultExplained_of_resultOf hr

/-! ### What keeps the invariant -/

/-- The invariant is about the block alone. -/
theorem inv_of_sameBlock {s t : State} (h : s.SameBlock t) (hs : s.Inv) : t.Inv := by
  obtain ⟨hlegal, htogether, hbuild, hexplained⟩ := hs
  refine ⟨legalStatus_of_sameBlock h hlegal, ?_, ?_, ?_⟩
  all_goals obtain ⟨hout0, hout1, hvalid, hfault, hcause, hfcmd, hchecked, hindexBits⟩ := h
  · simpa only [State.ResultsTogether, hout0, hout1, hvalid] using htogether
  · simpa only [State.LegalBuild, hindexBits] using hbuild
  · simpa only [State.FaultExplained, hfault, hcause, hfcmd, hchecked, hindexBits] using hexplained

theorem inv_resetBlock {s : State} (hbuild : s.LegalBuild) : s.resetBlock.Inv :=
  ⟨legalStatus_resetBlock s, by simp [State.ResultsTogether], hbuild, faultExplained_of_not_fault rfl⟩

/-- The command on the lines keeps the invariant: ignored, completed with both results, or faulted with an explained fault. -/
theorem issueCommand_keeps_inv {s t : State} (hs : s.Inv) (h : issueCommand s = .next t) : t.Inv := by
  have ⟨hlegal, ⟨htogether, _⟩, hbuild, _⟩ := hs
  rcases issueCommand_cases h with ⟨-, rfl⟩ | ⟨hf, v0, v1, rfl⟩ | ⟨hf, c, rfl⟩
  · exact hs
  · exact ⟨legalStatus_complete hf hlegal v0 v1, by simp [State.ResultsTogether], hbuild, faultExplained_of_not_fault hf⟩
  · exact ⟨legalStatus_enterFault s c s.cmd, ⟨htogether, by simp⟩, hbuild, issueCommand_faultExplained hf h⟩

/-- Settles O47: by the cases of a step, the block stays as it was, is reset, or performs the command on its lines. -/
theorem stepKeepsInv : Obligations.StepKeepsInv := by
  intro s t hs h
  rcases step_cases h with ⟨-, rfl⟩ | ⟨rest, -, rfl⟩ | ⟨w, oa, ob, oc, od, rest, a, b, c, d, -, -, -, -, -, hi⟩ |
    ⟨act, rest, -, -, -, -, hsame⟩
  · exact hs
  · exact inv_resetBlock hs.legalBuild
  · exact issueCommand_keeps_inv (inv_of_sameBlock (sameBlock_withProgram_drive s rest w a b c d) hs) hi
  · exact inv_of_sameBlock hsame hs

/-- Settles O46: the block after reset is a block that the RESET event leaves unchanged. -/
theorem invAtReset : Obligations.InvAtReset :=
  have hreset (c : Bool) (n : BitVec 8) (hn : n ≠ 0) : (State.resetOf c n).Inv := inv_resetBlock (s := State.resetOf c n) hn
  ⟨hreset, hreset true 64 (by decide)⟩

end Sys2Proof.Machine
end

section
/-! Proofs about a command as a whole: the frame that all seven share (R66), and how a command comes to run, from a line of a
listing (R59) and from the host's next action (R50). -/

namespace Sys2Proof.Machine

/-- Settles O6: the command is ignored by a halted block; else its computation completes or faults. -/
theorem commandFrame : Obligations.CommandFrame := by
  intro i s
  cases hf : s.fault with
  | true => exact ⟨s, exec_halted hf i, by simp [State.SameOutside], .inl ⟨rfl, rfl⟩⟩
  | false =>
    cases hr : resultOf i s with
    | ok v0 v1 =>
      obtain ⟨t, ht, hdone⟩ := exec_completes hf hr
      have ⟨_, _, _, _, _, _, houtside⟩ := hdone
      exact ⟨t, ht, houtside, .inr (.inl ⟨rfl, v0, v1, hdone⟩)⟩
    | fault c =>
      obtain ⟨t, ht, hfault⟩ := exec_faults hf hr
      have ⟨_, _, _, _, _, _, houtside⟩ := hfault
      exact ⟨t, ht, houtside, .inr (.inr ⟨rfl, _, hfault⟩)⟩

/-! ### From a listing to a step (R50, R59) -/

/-- Settles O5: an issued word that decodes to a command runs it on the driven lines. -/
theorem stepRunsDecoded : Obligations.StepRunsDecoded := by
  intro s w oa ob oc od rest a b c d i hp ha hb hc hd hi
  exact (step_issue hp ha hb hc hd).trans (issueCommand_of_command hi)

/-- A command word taken as a table number and back is the word. -/
theorem ofNat_toNat_mod (w : CmdBits) : BitVec.ofNat 32 (w.toNat % 2 ^ 32) = w := by
  rw [Nat.mod_eq_of_lt w.isLt, BitVec.ofNat_toNat, BitVec.setWidth_eq]

theorem withFetchWord_toNat (s : State) (w : CmdBits) : s.withFetchWord 32 w.toNat = s.placeIssue w :=
  congrArg s.placeIssue (ofNat_toNat_mod w)

/-- Settles O3: the placed word is the host's next ISSUE, with the values that the ports carry. -/
theorem placedWordRunsNext : Obligations.PlacedWordRunsNext := by
  intro s i
  refine ⟨?_, ?_⟩
  · rw [decodeTableWord, ofNat_toNat_mod, decode_encode]
  · rw [withFetchWord_toNat]
    exact stepRunsDecoded _ _ _ _ _ _ s.program _ _ _ _ i rfl rfl rfl rfl rfl (decode_encode i)

/-- At most four operands, put on the ports in order with a default on the others, are those operands and then the default. -/
theorem getD_ports_eq {α : Type} (z : α) : ∀ ops : List α, ops.length ≤ 4 →
    [ops.getD 0 z, ops.getD 1 z, ops.getD 2 z, ops.getD 3 z] = ops ++ List.replicate (4 - ops.length) z
  | [], _ | [_], _ | [_, _], _ | [_, _, _], _ | [_, _, _, _], _ => rfl
  | _ :: _ :: _ :: _ :: _ :: _, h => absurd h (by simp)

theorem arity_le_four (m : Instr) : m.arity ≤ 4 := by cases m <;> decide

/-- Settles O4: the ISSUE of a line has its operands on the ports, and 0 on the others. -/
theorem commandLineAssembles : Obligations.CommandLineAssembles := by
  intro m ops dsts hops hdsts
  refine ⟨_, _, _, _, ?_, hops ▸ getD_ports_eq (Operand.lit 0) ops (hops ▸ arity_le_four m)⟩
  have hwf : (AsmLine.command m ops dsts).wf = true := by simp [AsmLine.wf, hops, hdsts]
  exact if_pos hwf

end Sys2Proof.Machine
end

section
/-! Proofs of what the spec derives about the limb commands (R72, R75, R82, R90, R92). First the rules: the upper limb as one bit,
the identity of the wide subtraction as what fixes its two limbs, and the products with a zero. Then the statements. -/

namespace Sys2Proof.Machine

/-! ### The carry as one bit (R72) -/

/-- An accumulator below 2^65 has bit 64 alone in its upper limb. -/
theorem highLimb_eq_bit64 {x : DWord} (hx : x.toNat < 2 ^ 65) : highLimb x = (BitVec.ofBool (x.getLsbD 64)).setWidth 64 := by
  have hbit : x.getLsbD 64 = decide (x.toNat / 2 ^ 64 = 1) := by
    rw [BitVec.getLsbD, Nat.testBit_eq_decide_div_mod_eq, Nat.mod_eq_of_lt (by omega)]
  rw [← BitVec.toNat_inj, highLimb_toNat, hbit]
  rcases (by omega : x.toNat / 2 ^ 64 = 0 ∨ x.toNat / 2 ^ 64 = 1) with h | h <;> rw [h] <;> rfl

/-- Settles O10: the sum of two limbs and one bit is below 2^65. -/
theorem adcCarryIsOneBit : Obligations.AdcCarryIsOneBit := by
  intro k a b c hc
  have hsum : (wide a + wide b + wide c).toNat ≤ 2 ^ 65 - 1 := by
    rw [adc_acc_toNat]
    omega
  exact ⟨hsum, _, (adcResult_ok (.inr hc) a b).trans (congrArg _ (highLimb_eq_bit64 (by omega)))⟩

/-! ### The borrow (R75, R82) -/

/-- Settles O12: in the identity of the difference the borrow is 0 or 1, and 1 exactly when the difference is negative. -/
theorem sbbBorrowIsSign : Obligations.SbbBorrowIsSign := by
  intro s hf hc
  obtain ⟨diff, borrow, hr, hdiff⟩ := sbbResult_exact (k := s.checked) (.inr hc) s.portA s.portB
  refine ⟨_, borrow, exec_of_ok (i := .sbb) hf hr, rfl, ?_⟩
  refine ⟨?_, ?_, ?_⟩ <;> bv_omega

/-- Settles O16: a difference has one limb and one borrow count, and those of the wide subtraction are such. -/
theorem negatedUpperLimbIsBorrowCount : Obligations.NegatedUpperLimbIsBorrowCount := by
  intro a x diff k hx h
  have hexact := borrowCount_exact a x hx
  constructor <;> rw [← BitVec.toNat_inj] <;> omega

/-! ### The quotient that does not fit (R90) -/

/-- Settles O18: DIV completes where hi < divisor, and there the quotient fits; elsewhere neither holds. -/
theorem divOverflowIffQuotientTooWide : Obligations.DivOverflowIffQuotientTooWide := by
  intro lo hi d hd
  rcases Nat.lt_or_ge hi.toNat d.toNat with hlt | hle
  · have hfits := quotient_lt hlt lo
    refine iff_of_false ?_ (by omega)
    simp [divResult_ok hd (.inr hlt)]
  · refine iff_of_true (divResult_divOverflow hd hle lo) ?_
    rw [Nat.le_div_iff_mul_le (BitVec.toNat_pos_of_ne_zero hd), Nat.mul_comm]
    exact (Nat.mul_le_mul_right _ hle).trans (Nat.le_add_right _ _)

/-! ### Zero operands (R92) -/

theorem wide_mul_eq_zero {b c : Word} (h : b = 0 ∨ c = 0) : wide b * wide c = wide 0 := by
  rcases h with rfl | rfl
  · rw [wide_zero, zero_mul]
  · rw [wide_zero, mul_zero]

theorem macResult_of_zero {b c : Word} (h : b = 0 ∨ c = 0) (a d : Word) : macResult a b c d = adcResult false a 0 d := by
  simp only [macResult, adcResult, Bool.false_and, wide_mul_eq_zero h]
  rfl

theorem masResult_of_zero {b c : Word} (h : b = 0 ∨ c = 0) (k : Bool) (a d : Word) :
    masResult k a b c d = sbbResult k a 0 d := by
  simp only [masResult, sbbResult, wide_mul_eq_zero h]

/-- ADC of a limb, 0 and one bit carries at most once. -/
theorem adcResult_zero_carry_le {d : Word} (hd : d.toNat ≤ 1) (a : Word) :
    ∃ v0 v1, adcResult false a 0 d = .ok v0 v1 ∧ v1.toNat ≤ 1 := by
  obtain ⟨v0, v1, hr, hsum⟩ := adcResult_exact (k := false) (.inl rfl) a 0
  exact ⟨v0, v1, hr, by simp at hsum; omega⟩

theorem sbbResult_zero_borrow_le {d : Word} (hd : d.toNat ≤ 1) (a : Word) :
    ∃ v0 v1, sbbResult false a 0 d = .ok v0 v1 ∧ v1.toNat ≤ 1 := by
  obtain ⟨v0, v1, hr, hdiff⟩ := sbbResult_exact (k := false) (.inl rfl) a 0
  exact ⟨v0, v1, hr, by simp at hdiff; omega⟩

/-- On zero operands the accumulator is 0, and a carry or borrow of 0 is in range in both builds. -/
theorem results_of_zero (k : Bool) :
    adcResult k 0 0 0 = .ok 0 0 ∧ sbbResult k 0 0 0 = .ok 0 0 ∧ macResult 0 0 0 0 = .ok 0 0 ∧ masResult k 0 0 0 0 = .ok 0 0 := by
  cases k <;> decide

/-- Settles O23: with every operand 0 each computation is (0, 0); and a zero product leaves the sum or difference of the others. -/
theorem zeroOperands : Obligations.ZeroOperands := by
  refine ⟨fun s hf hA hB hC hD i hi => exec_completes hf ?_, fun s hf hA hB hC => exec_completes (i := .div) hf ?_,
    fun a b c d h => ⟨macResult_of_zero h a d, masResult_of_zero h false a d, fun hd => ?_⟩⟩
  · obtain ⟨hadc, hsbb, hmac, hmas⟩ := results_of_zero s.checked
    rcases hi with rfl | rfl | rfl | rfl <;> simpa only [resultOf, hA, hB, hC, hD]
  · simpa [resultOf, hA, hB] using divResult_div64 s.checked hC 0
  · obtain ⟨v0, v1, hmac, hcarry⟩ := adcResult_zero_carry_le hd a
    obtain ⟨w0, w1, hmas, hborrow⟩ := sbbResult_zero_borrow_le hd a
    exact ⟨v0, v1, w0, w1, (macResult_of_zero h a d).trans hmac, hcarry, (masResult_of_zero h false a d).trans hmas, hborrow⟩

end Sys2Proof.Machine
end

section
/-! Proofs about the reversal as a function (R103, R104): each fact is read off its bits, which `rev64_bit` gives. -/

namespace Sys2Proof.Machine

/-! ### The reversal (R103) -/

theorem rev64_rev64 (x : Word) : rev64 (rev64 x) = x := by
  refine BitVec.eq_of_getLsbD_eq fun i hi => ?_
  rw [rev64_bit _ i hi, rev64_bit x (63 - i) (by omega), Nat.sub_sub_self (by omega)]

theorem map_reversed_range : (List.range 64).map (63 - ·) = (List.range 64).reverse := by decide

/-- The set bits of the reversal are those of the word, counted from the other end. -/
theorem rev64_count_bits (x : Word) :
    ((List.range 64).filter fun i => (rev64 x).getLsbD i).length = ((List.range 64).filter fun i => x.getLsbD i).length := by
  simp only [← List.countP_eq_length_filter]
  calc (List.range 64).countP (fun i => (rev64 x).getLsbD i)
    _ = (List.range 64).countP (fun i => x.getLsbD (63 - i)) :=
      List.countP_congr fun i hi => by rw [rev64_bit x i (List.mem_range.mp hi)]
    _ = ((List.range 64).map (63 - ·)).countP (fun i => x.getLsbD i) := List.countP_map.symm
    _ = (List.range 64).countP (fun i => x.getLsbD i) := by rw [map_reversed_range, List.countP_reverse]

theorem getLsbD_of_toNat_lt {x : Word} {k i : Nat} (hx : x.toNat < 2 ^ k) (hi : k ≤ i) : x.getLsbD i = false :=
  Nat.testBit_lt_two_pow (hx.trans_le (Nat.pow_le_pow_right (by omega) hi))

/-- The reversal of a word below 2^k has its low 64 - k bits 0. -/
theorem two_pow_dvd_rev64 {x : Word} {k : Nat} (hx : x.toNat < 2 ^ k) : 2 ^ (64 - k) ∣ (rev64 x).toNat := by
  refine Nat.dvd_of_mod_eq_zero (Nat.eq_of_testBit_eq fun i => ?_)
  rw [Nat.testBit_mod_two_pow, Nat.zero_testBit, Bool.and_eq_false_imp]
  intro hi
  have hi : i < 64 - k := of_decide_eq_true hi
  exact (rev64_bit x i (by omega)).trans (getLsbD_of_toNat_lt hx (by omega))

/-- Settles O21: the three facts, each from the bits of the reversal. -/
theorem reversalIsInvolution : Obligations.ReversalIsInvolution := fun x =>
  ⟨rev64_rev64 x, rev64_count_bits x, fun _ _ => two_pow_dvd_rev64⟩

/-! ### The host's reduced index (R104, R149) -/

theorem reducedIndex_lt {k : Nat} (hk : k ≤ 64) (i : Word) : (reducedIndex k i).toNat < 2 ^ k := by
  rw [reducedIndex, BitVec.toNat_ushiftRight, Nat.shiftRight_eq_div_pow]
  refine Nat.div_lt_of_lt_mul ?_
  rw [← Nat.pow_add, Nat.sub_add_cancel hk]
  exact (rev64 i).isLt

theorem reducedIndex_bit {k j : Nat} (hk : k ≤ 64) (hj : j < k) (i : Word) :
    (reducedIndex k i).getLsbD j = i.getLsbD (k - 1 - j) := by
  rw [reducedIndex, BitVec.getLsbD_ushiftRight, rev64_bit i _ (by omega)]
  congr 1
  omega

/-- Settles O22: the bound and the bits of the shifted reversal; a shift by 64 leaves nothing. -/
theorem reducedIndexReversesLowBits : Obligations.ReducedIndexReversesLowBits :=
  ⟨fun _ i _ hk _ => ⟨reducedIndex_lt hk i, fun _ hj => reducedIndex_bit hk hj i⟩,
    fun i => BitVec.ushiftRight_eq_zero (Nat.le_refl 64), by decide⟩

end Sys2Proof.Machine
end

section
/-! Proofs about the host (30_encoding.md section 5, R157). First the rules: the host's variables, a binding, what a step notes as
read, what it takes from the host's program, and where it stops. Then the statements, each a short use of these rules. -/

namespace Sys2Proof.Machine

/-! ### The host's variables (R59) -/

/-- Binding a name leaves every other name as it was (R59). -/
theorem lookupVar_bindVar_of_ne {x y : HostVar} (h : y ≠ x) (v : Word) (l : List (HostVar × Word)) :
    lookupVar y (bindVar x v l) = lookupVar y l := by
  induction l with
  | nil => simp [bindVar, lookupVar, h]
  | cons p rest ih =>
    obtain ⟨z, u⟩ := p
    by_cases hx : x = z
    · subst hx
      simp [bindVar, lookupVar, h]
    · simp [bindVar, lookupVar, hx, ih]

/-- Settles O42: both facts by induction on the list of variables. -/
theorem variableBinding : Obligations.VariableBinding := fun x v l =>
  ⟨lookupVar_bindVar_same x v l, fun _ hy => lookupVar_bindVar_of_ne hy v l⟩

/-- Settles O36: the READ's value is noted, and bound to the variable. -/
theorem readBindsRegisterValue : Obligations.ReadBindsRegisterValue := by
  intro s n x rest v hp hv
  exact ⟨_, step_read hp hv, rfl, lookupVar_bindVar_same x v s.vars, fun _ hy => lookupVar_bindVar_of_ne hy v s.vars, rfl⟩

/-- A step that shifts an operand with a value binds the shifted value (R59). -/
theorem step_shr {s : State} {o : Operand} {k : Nat} {x : HostVar} {rest : List HostAction} {v : Word}
    (hp : s.program = .shr o k x :: rest) (ho : s.operand o = some v) :
    step s = .next ((s.withProgram rest).setVar x (v >>> k)) := by
  simp only [step_action s _ _ hp, runAction, runShr, operand_withProgram, ho]

/-- Settles O38: the shift divides by 2^k, and only the variable is bound. -/
theorem hostShift : Obligations.HostShift := by
  intro s o k x rest v hp ho
  have hstep := step_shr hp ho
  refine ⟨_, v >>> k, hstep, sameBlock_of_host_action hp (by simp) (by simp) hstep, lookupVar_bindVar_same x _ s.vars, ?_,
    BitVec.ushiftRight_eq_zero, fun y hy => lookupVar_bindVar_of_ne hy _ s.vars⟩
  rw [BitVec.toNat_ushiftRight, Nat.shiftRight_eq_div_pow]

/-! ### A line's binding (R59) -/

theorem bindReg_of_value {s : State} {n : BitVec 8} {v : Word} (h : s.readReg n = some v) (x : HostVar) :
    s.bindReg n x = ((s.setRegnum n).observe n v).setVar x v := by
  rw [State.bindReg, rdata_setRegnum, h]

theorem bindReg_of_no_value {s : State} {n : BitVec 8} (h : s.readReg n = none) (x : HostVar) :
    s.bindReg n x = s.flagBindError := by
  rw [State.bindReg, rdata_setRegnum, h]

/-- The host reads STATUS before it binds (R59). -/
def State.readStatus (s : State) : State := (s.setRegnum 2).observe 2 (statusWord s)

@[simp] theorem State.readStatus_valid (s : State) : s.readStatus.valid = s.valid := rfl
@[simp] theorem State.readStatus_vars (s : State) : s.readStatus.vars = s.vars := rfl
@[simp] theorem State.readStatus_bindError (s : State) : s.readStatus.bindError = s.bindError := rfl
@[simp] theorem State.readStatus_observed (s : State) :
    s.readStatus.observed = s.observed ++ [(2, statusWord s)] := rfl
@[simp] theorem statusWord_withProgram (s : State) (p : List HostAction) : statusWord (s.withProgram p) = statusWord s := rfl

theorem readStatus_sameBlock (s : State) : s.SameBlock s.readStatus := by
  simp [State.SameBlock, State.readStatus]

/-- What a register reads as is a matter of the block. -/
theorem readReg_of_sameBlock {s t : State} (h : s.SameBlock t) (n : BitVec 8) : t.readReg n = s.readReg n := by
  obtain ⟨hout0, hout1, hvalid, hfault, hcause, hfcmd, hchecked, hindexBits⟩ := h
  simp only [State.readReg, statusWord, configWord, hout0, hout1, hvalid, hfault, hcause, hfcmd, hchecked, hindexBits]

theorem step_bind_one {s : State} {x : HostVar} {rest : List HostAction} (hp : s.program = .bind x none :: rest) :
    step s = .next ((s.withProgram rest).readStatus.bindReg 0 x) :=
  step_action s _ _ hp

theorem step_bind_two {s : State} {x y : HostVar} {rest : List HostAction} (hp : s.program = .bind x (some y) :: rest) :
    step s = .next (((s.withProgram rest).readStatus.bindReg 0 x).bindReg 1 y) :=
  step_action s _ _ hp

theorem readReg_of_valid {s : State} (hv : s.valid = true) : s.readReg 0 = s.out0 ∧ s.readReg 1 = s.out1 :=
  ⟨(readReg_out0 s).trans (if_pos hv), (readReg_out1 s).trans (if_pos hv)⟩

/-- A binding that finds VALID = 0 notes the host error and nothing else. -/
theorem bindReg_out_of_not_valid {s : State} (hv : s.valid = false) {n : BitVec 8} (hn : n = 0 ∨ n = 1) (x : HostVar) :
    s.bindReg n x = s.flagBindError :=
  bindReg_of_no_value (readReg_out_of_not_valid hv hn) x

/-- Settles O37: with VALID = 1 each destination is bound to its register's value; with VALID = 0 each is a host error. -/
theorem bindingNeedsValid : Obligations.BindingNeedsValid := by
  refine ⟨fun s x rest v0 hp hv h0 => ?one, fun s x y rest v0 v1 hp hv h0 h1 => ?two, fun s x y rest hp hv => ?notValid⟩
  case one =>
    have hread : (s.withProgram rest).readStatus.readReg 0 = some v0 :=
      (readReg_of_sameBlock (readStatus_sameBlock _) 0).trans ((readReg_of_valid hv).1.trans h0)
    have hstep := step_bind_one hp
    rw [bindReg_of_value hread] at hstep
    refine ⟨_, hstep, ?_⟩
    simp +contextual [lookupVar_bindVar_of_ne]
  case two =>
    have hread0 : (s.withProgram rest).readStatus.readReg 0 = some v0 :=
      (readReg_of_sameBlock (readStatus_sameBlock _) 0).trans ((readReg_of_valid hv).1.trans h0)
    have hread1 : ((s.withProgram rest).readStatus.bindReg 0 x).readReg 1 = some v1 :=
      (readReg_of_sameBlock (sameBlock_trans (readStatus_sameBlock _) (bindReg_sameBlock _ 0 x)) 1).trans
        ((readReg_of_valid hv).2.trans h1)
    have hstep := step_bind_two hp
    rw [bindReg_of_value hread1, bindReg_of_value hread0] at hstep
    refine ⟨_, hstep, ?_⟩
    simp +contextual [lookupVar_bindVar_of_ne]
  case notValid =>
    have herror : (s.withProgram rest).readStatus.bindReg 0 x = (s.withProgram rest).readStatus.flagBindError :=
      bindReg_out_of_not_valid (by simpa using hv) (.inl rfl) x
    cases y with
    | none =>
      refine ⟨_, step_bind_one hp, ?_⟩
      rw [herror]
      simp
    | some y =>
      refine ⟨_, step_bind_two hp, ?_⟩
      rw [herror, bindReg_out_of_not_valid (by simpa using hv) (.inr rfl)]
      simp

/-! ### The block between commands (R129) -/

/-- Settles O40: by the cases of a step, the block changes only by a reset or an issued word. -/
theorem stateHeldUntilCommandOrReset : Obligations.StateHeldUntilCommandOrReset := by
  refine ⟨fun s t h hchange => ?_, step_idle⟩
  rcases step_block_cases h with ⟨hsame, -⟩ | hreset | ⟨-, w, oa, ob, oc, od, rest, -, hp, -⟩
  · exact absurd hsame hchange
  · exact .inl (hreset.imp fun _ => And.left)
  · exact .inr ⟨w, oa, ob, oc, od, rest, hp⟩

/-! ### What a step notes as read (R157) -/

/-- From `s` to `t` the host has noted only values that its registers read as in `s`. -/
def State.NotesReadsOf (s t : State) : Prop :=
  ∃ new, t.observed = s.observed ++ new ∧ ∀ n v, (n, v) ∈ new → s.readReg n = some v

theorem notesReadsOf_of_observed_eq {s t : State} (h : t.observed = s.observed) : s.NotesReadsOf t :=
  ⟨[], by simp [h], by simp⟩

/-- Noting what a register reads as. -/
theorem notesReadsOf_of_read {s t : State} {n : BitVec 8} {v : Word} (h : t.observed = s.observed ++ [(n, v)])
    (hv : s.readReg n = some v) : s.NotesReadsOf t :=
  ⟨_, h, fun m u hm => by
    obtain ⟨rfl, rfl⟩ : m = n ∧ u = v := by simpa using hm
    exact hv⟩

theorem notesReadsOf_trans {s t u : State} (hsame : s.SameBlock t) (h : s.NotesReadsOf t) (h' : t.NotesReadsOf u) :
    s.NotesReadsOf u := by
  obtain ⟨new, hnew, hreads⟩ := h
  obtain ⟨new', hnew', hreads'⟩ := h'
  refine ⟨new ++ new', by rw [hnew', hnew, List.append_assoc], fun n v hmem => ?_⟩
  rcases List.mem_append.mp hmem with hmem | hmem
  · exact hreads n v hmem
  · exact (readReg_of_sameBlock hsame n).symm.trans (hreads' n v hmem)

theorem bindReg_notesReadsOf (s : State) (n : BitVec 8) (x : HostVar) : s.NotesReadsOf (s.bindReg n x) := by
  cases h : s.readReg n with
  | none =>
    rw [bindReg_of_no_value h]
    exact notesReadsOf_of_observed_eq rfl
  | some v =>
    rw [bindReg_of_value h]
    exact notesReadsOf_of_read rfl h

theorem runBind_notesReadsOf {s t : State} {x : HostVar} {y : Option HostVar} (h : runBind x y s = .next t) :
    s.NotesReadsOf t := by
  have hstatus : s.NotesReadsOf s.readStatus := notesReadsOf_of_read rfl (readReg_status s)
  have hfirst := notesReadsOf_trans (readStatus_sameBlock s) hstatus (bindReg_notesReadsOf s.readStatus 0 x)
  have hsame := sameBlock_trans (readStatus_sameBlock s) (bindReg_sameBlock s.readStatus 0 x)
  cases y with
  | none =>
    cases h
    exact hfirst
  | some y =>
    cases h
    exact notesReadsOf_trans hsame hfirst (bindReg_notesReadsOf _ 1 y)

/-- A command notes nothing: the block does not know the host's record. -/
theorem issueCommand_observed {s t : State} (h : issueCommand s = .next t) : t.observed = s.observed := by
  rcases issueCommand_cases h with ⟨-, rfl⟩ | ⟨-, v0, v1, rfl⟩ | ⟨-, c, rfl⟩ <;> simp

/-- Each action notes only what registers read as: a READ its own, a binding those it takes, and every other action nothing. -/
theorem runAction_notesReadsOf {s t : State} {act : HostAction} (h : runAction act s = .next t) : s.NotesReadsOf t := by
  cases act with
  | reset =>
    cases h
    exact notesReadsOf_of_observed_eq rfl
  | issue w oa ob oc od =>
    simp only [runAction, runIssue] at h
    split at h
    · exact notesReadsOf_of_observed_eq (issueCommand_observed h :)
    · cases h
  | read n x =>
    simp only [runAction, runRead, rdata_setRegnum] at h
    split at h
    next v hv =>
      cases h
      exact notesReadsOf_of_read rfl hv
    next => cases h
  | write n o =>
    simp only [runAction, runWrite] at h
    split at h <;> cases h
    exact notesReadsOf_of_observed_eq rfl
  | bind x y => exact runBind_notesReadsOf h
  | shr o k x =>
    simp only [runAction, runShr] at h
    split at h <;> cases h
    exact notesReadsOf_of_observed_eq rfl

theorem step_notesReadsOf {s t : State} (h : step s = .next t) : s.NotesReadsOf t := by
  cases hp : s.program with
  | nil =>
    rw [step_idle s hp] at h
    cases h
    exact notesReadsOf_of_observed_eq rfl
  | cons act rest =>
    rw [step_action s _ _ hp] at h
    exact runAction_notesReadsOf (s := s.withProgram rest) h

/-- OUT0 and OUT1 read as a value only with VALID = 1, and then as their own (R32). -/
theorem valid_of_readReg_out {s : State} {n : BitVec 8} {v : Word} (hn : n = 0 ∨ n = 1) (h : s.readReg n = some v) :
    s.valid = true := by
  cases hv : s.valid with
  | true => rfl
  | false => simp [readReg_out_of_not_valid hv hn] at h

/-- Settles O41: a step notes only what registers read as, and OUT0 and OUT1 read as their values with VALID = 1 alone. -/
theorem onlyVouchedResultsObserved : Obligations.OnlyVouchedResultsObserved := by
  intro s t h
  obtain ⟨new, hnew, hreads⟩ := step_notesReadsOf h
  refine ⟨new, hnew, fun n v hmem hn => ?_⟩
  have hread := hreads n v hmem
  have hv := valid_of_readReg_out hn hread
  obtain ⟨h0, h1⟩ := readReg_of_valid hv
  exact ⟨hv, fun h => h0.symm.trans (h ▸ hread), fun h => h1.symm.trans (h ▸ hread)⟩

/-! ### The end of a run (R157) -/

theorem issueCommand_program {s t : State} (h : issueCommand s = .next t) : t.program = s.program := by
  rcases issueCommand_cases h with ⟨-, rfl⟩ | ⟨-, v0, v1, rfl⟩ | ⟨-, c, rfl⟩ <;> simp

/-- A step takes the next action, if any, from the host's program. -/
theorem step_program {s t : State} (h : step s = .next t) : t.program = s.program.tail := by
  rcases step_cases h with ⟨hp, rfl⟩ | ⟨rest, hp, rfl⟩ | ⟨w, oa, ob, oc, od, rest, a, b, c, d, hp, -, -, -, -, hi⟩ |
    ⟨act, rest, hp, -, -, ht, -⟩
  · simp [hp]
  · simp [hp]
  · simp [issueCommand_program hi, hp]
  · simp [ht, hp]

/-- Settles O43: by induction on the steps, each of which takes one action. -/
theorem runEndsWithLastAction : Obligations.RunEndsWithLastAction := by
  intro n
  induction n with
  | zero =>
    intro s t hlen h
    injection h with h
    exact h ▸ List.eq_nil_of_length_eq_zero (Nat.le_zero.mp hlen)
  | succ n ih =>
    intro s t hlen h
    rw [run_succ] at h
    cases hstep : step s with
    | next u =>
      rw [hstep] at h
      refine ih u t ?_ h
      rw [step_program hstep, List.length_tail]
      omega
    | fault r => simp [hstep] at h
    | refused r => simp [hstep] at h

/-! ### Where a step stops (R32, R59) -/

theorem issueCommand_next (s : State) : ∃ t, issueCommand s = .next t := by
  obtain ⟨r, hr⟩ := issueCommand_eq_perform_cmd s
  exact hr ▸ perform_next s s.cmd r

/-- An ISSUE with an operand that has no value stops (R59). -/
theorem runIssue_of_unbound {s : State} {oa ob oc od : Operand} (w : CmdBits)
    (h : ∃ o ∈ [oa, ob, oc, od], s.operand o = none) : runIssue w oa ob oc od s = .fault .unboundVariable := by
  unfold runIssue
  split
  next ha hb hc hd =>
    obtain ⟨o, hmem, ho⟩ := h
    simp only [List.mem_cons, List.not_mem_nil, or_false] at hmem
    rcases hmem with rfl | rfl | rfl | rfl <;> simp_all
  next => rfl

/-- An action with an operand that has no value stops (R59). -/
theorem runAction_of_unbound {s : State} {act : HostAction} {o : Operand} (hmem : o ∈ act.operands)
    (ho : s.operand o = none) : runAction act s = .fault .unboundVariable := by
  cases act with
  | reset | read | bind => cases hmem
  | issue w oa ob oc od => exact runIssue_of_unbound w ⟨o, hmem, ho⟩
  | write n v =>
    obtain rfl : o = v := by simpa [HostAction.operands] using hmem
    simp only [runAction, runWrite, ho]
  | shr v k x =>
    obtain rfl : o = v := by simpa [HostAction.operands] using hmem
    simp only [runAction, runShr, ho]

/-- An action whose operands all have values answers a next state, but for a READ of a register that has none. -/
theorem runAction_outcome (act : HostAction) (s : State) :
    (∃ t, runAction act s = .next t) ∨
    (runAction act s = .fault .readWithoutValue ∧ ∃ n x, act = .read n x ∧ s.readReg n = none) ∨
    (runAction act s = .fault .unboundVariable ∧ ∃ o ∈ act.operands, s.operand o = none) := by
  by_cases hunbound : ∃ o ∈ act.operands, s.operand o = none
  · obtain ⟨o, hmem, ho⟩ := hunbound
    exact .inr (.inr ⟨runAction_of_unbound hmem ho, o, hmem, ho⟩)
  · have hval : ∀ o ∈ act.operands, ∃ v, s.operand o = some v := fun o hmem =>
      Option.ne_none_iff_exists'.mp fun ho => hunbound ⟨o, hmem, ho⟩
    cases act with
    | reset => exact .inl ⟨_, rfl⟩
    | issue w oa ob oc od =>
      simp only [HostAction.operands, List.forall_mem_cons] at hval
      obtain ⟨⟨a, ha⟩, ⟨b, hb⟩, ⟨c, hc⟩, ⟨d, hd⟩, -⟩ := hval
      simp only [runAction, runIssue, ha, hb, hc, hd]
      exact .inl (issueCommand_next _)
    | read n x =>
      cases hread : s.readReg n with
      | none => exact .inr (.inl ⟨runRead_of_no_value hread x, n, x, rfl, hread⟩)
      | some v => exact .inl ⟨_, by simp only [runAction, runRead, rdata_setRegnum, hread]; rfl⟩
    | write n v =>
      obtain ⟨u, hu⟩ := hval v (by simp [HostAction.operands])
      exact .inl ⟨_, by simp only [runAction, runWrite, hu]; rfl⟩
    | bind x y => cases y <;> exact .inl ⟨_, rfl⟩
    | shr v k x =>
      obtain ⟨u, hu⟩ := hval v (by simp [HostAction.operands])
      exact .inl ⟨_, by simp only [runAction, runShr, hu]; rfl⟩

/-- A step answers a next state or stops for one of two faults of the host's program. -/
theorem step_outcome (s : State) :
    (∃ t, step s = .next t) ∨
    (step s = .fault .readWithoutValue ∧ ∃ n x rest, s.program = .read n x :: rest ∧ s.readReg n = none) ∨
    (step s = .fault .unboundVariable ∧
      ∃ act rest o, s.program = act :: rest ∧ o ∈ act.operands ∧ s.operand o = none) := by
  cases hp : s.program with
  | nil => exact .inl ⟨s, step_idle s hp⟩
  | cons act rest =>
    rw [step_action s _ _ hp]
    rcases runAction_outcome act (s.withProgram rest) with hnext | ⟨hstop, n, x, rfl, hnone⟩ | ⟨hstop, o, hmem, ho⟩
    · exact .inl hnext
    · exact .inr (.inl ⟨hstop, n, x, rest, rfl, hnone⟩)
    · exact .inr (.inr ⟨hstop, act, rest, o, rfl, hmem, operand_withProgram s rest o ▸ ho⟩)

/-- Where both results are written together, only OUT0 and OUT1 while VALID = 0 read as no value (R25, R32). -/
theorem not_valid_of_readReg_none {s : State} {n : BitVec 8} (hs : s.ResultsTogether) (h : s.readReg n = none) :
    s.valid = false ∧ (n = 0 ∨ n = 1) := by
  have hn : n = 0 ∨ n = 1 := by
    by_contra hne
    obtain ⟨v, hv⟩ := readReg_isSome_of_two_le s (n := n) (by bv_omega)
    simp [hv] at h
  refine ⟨?_, hn⟩
  by_contra hv
  have hv : s.valid = true := eq_true_of_ne_false hv
  obtain ⟨htogether, hwritten⟩ := hs
  obtain ⟨h0, h1⟩ := readReg_of_valid hv
  have hout0 : s.out0.isSome = true := hwritten hv
  rcases hn with rfl | rfl
  · rw [← h0, h] at hout0
    cases hout0
  · rw [htogether, ← h1, h] at hout0
    cases hout0

/-- Settles O44: by the outcomes of a step; a READ that has no value is of OUT0 or OUT1 while VALID = 0. -/
theorem stopsOnlyForHostFaults : Obligations.StopsOnlyForHostFaults := by
  refine ⟨fun s r hs h => ?_, fun s act rest o hp hmem ho => ?_, fun s r h => ?_⟩
  · rcases step_outcome s with ⟨t, hnext⟩ | ⟨hstop, n, x, rest, hp, hnone⟩ | ⟨hstop, hunbound⟩
    · cases hnext.symm.trans h
    · cases hstop.symm.trans h
      obtain ⟨hv, hn⟩ := not_valid_of_readReg_none hs hnone
      exact .inl ⟨rfl, hv, n, x, rest, hp, hn⟩
    · cases hstop.symm.trans h
      exact .inr ⟨rfl, hunbound⟩
  · rw [step_action s _ _ hp]
    exact runAction_of_unbound hmem ((operand_withProgram s rest o).trans ho)
  · rcases step_outcome s with ⟨t, hnext⟩ | ⟨hstop, -⟩ | ⟨hstop, -⟩
    · cases hnext.symm.trans h
    · cases hstop.symm.trans h
    · cases hstop.symm.trans h

end Sys2Proof.Machine
end

section
/-! Proofs about the host's compositions on multi-limb integers (R93, R146, R147, R150). First the rules: the value of a limb list,
and a call of one command on a block that is not halted. Then each composition by induction on its limbs, with the carry, borrow or
remainder that comes in made part of the statement. -/

namespace Sys2Proof.Machine

/-! ### The value of a limb list (R19) -/

theorem limbsValue_lt : ∀ l : List Word, limbsValue l < 2 ^ (64 * l.length)
  | [] => Nat.one_pos
  | x :: l => by
    have ih := limbsValue_lt l
    rw [limbsValue, List.length_cons, Nat.mul_succ, Nat.pow_add]
    omega

theorem limbsValue_replicate_zero (n : Nat) : limbsValue (List.replicate n 0) = 0 := by
  induction n with
  | zero => rfl
  | succ n ih =>
    rw [List.replicate_succ, limbsValue, ih]
    rfl

/-! ### One call (R54, R145) -/

/-- The host reads both results of a command that has completed. -/
theorem results_complete (s : State) (v0 v1 : Word) : (s.complete v0 v1).results = some (v0, v1) := rfl

/-- A call whose computation completes answers its results, and the block is not halted after it. -/
theorem call_of_ok {i : Instr} {a b c d v0 v1 : Word} {s : State} (hf : s.fault = false)
    (hr : resultOf i (s.drive (encode i) a b c d) = .ok v0 v1) :
    ∃ t, call i a b c d s = some (v0, v1, t) ∧ t.fault = false := by
  refine ⟨(s.drive (encode i) a b c d).complete v0 v1, ?_, hf⟩
  rw [call, exec_of_ok (s := s.drive (encode i) a b c d) hf hr]
  rfl

/-! ### Carry and borrow chains (R93, R146) -/

/-- Over integers, a call of `i` with a carry or borrow of at most 1 computes `x + σ(y + c)` with a carry or borrow of at most 1
out: σ is 1 for an addition and -1 for a subtraction. -/
def CallsExactly (i : Instr) (σ : Int) : Prop :=
  ∀ (x y c : Word) (s : State), s.fault = false → c.toNat ≤ 1 →
    ∃ v c' t, call i x y c 0 s = some (v, c', t) ∧ t.fault = false ∧ c'.toNat ≤ 1 ∧
      (x.toNat : Int) + σ * (y.toNat + c.toNat) = v.toNat + σ * (c'.toNat * 2 ^ 64)

theorem adc_callsExactly : CallsExactly .adc 1 := by
  intro x y c s hf hc
  obtain ⟨v, c', hr, hsum⟩ := adcResult_exact (k := s.checked) (.inr hc) x y
  obtain ⟨t, hcall, ht⟩ := call_of_ok (i := .adc) (d := 0) hf hr
  exact ⟨v, c', t, hcall, ht, by omega, by omega⟩

theorem sbb_callsExactly : CallsExactly .sbb (-1) := by
  intro x y c s hf hc
  obtain ⟨v, c', hr, hdiff⟩ := sbbResult_exact (k := s.checked) (.inr hc) x y
  obtain ⟨t, hcall, ht⟩ := call_of_ok (i := .sbb) (d := 0) hf hr
  exact ⟨v, c', t, hcall, ht, by omega, by omega⟩

/-- The chain of exact calls is exact on the whole integers. -/
theorem carryChain_exact {i : Instr} {σ : Int} (hi : CallsExactly i σ) (ps : List (Word × Word)) :
    ∀ (c : Word) (s : State), s.fault = false → c.toNat ≤ 1 →
      ∃ vs c' t, carryChain i c s ps = some (vs, c', t) ∧ t.fault = false ∧ vs.length = ps.length ∧ c'.toNat ≤ 1 ∧
        (limbsValue (ps.map Prod.fst) : Int) + σ * (limbsValue (ps.map Prod.snd) + c.toNat) =
          limbsValue vs + σ * (c'.toNat * 2 ^ (64 * ps.length)) := by
  induction ps with
  | nil => exact fun c s hf hc => ⟨[], c, s, rfl, hf, rfl, hc, by simp [limbsValue]⟩
  | cons p ps ih =>
    obtain ⟨x, y⟩ := p
    intro c s hf hc
    obtain ⟨v, c₁, t, hcall, ht, hc₁, hlimb⟩ := hi x y c s hf hc
    obtain ⟨vs, c₂, u, hchain, hu, hlen, hc₂, hrest⟩ := ih c₁ t ht hc₁
    refine ⟨v :: vs, c₂, u, by simp only [carryChain, hcall, hchain], hu, by simp [hlen], hc₂, ?_⟩
    simp only [List.map_cons, limbsValue, List.length_cons, Nat.mul_succ, pow_add]
    push_cast
    linear_combination hlimb + 2 ^ 64 * hrest

/-- Settles O48: the exact chain of additions; its limbs are below 2^(64N), so its last carry is the quotient by 2^(64N). -/
theorem addChainIsExact : Obligations.AddChainIsExact := by
  intro s ps hf
  obtain ⟨vs, c, t, hchain, ht, hlen, hc, hsum⟩ := carryChain_exact adc_callsExactly ps 0 s hf (by simp)
  have hlt := limbsValue_lt vs
  rw [hlen] at hlt
  have hsum : limbsValue vs + 2 ^ (64 * ps.length) * c.toNat =
      limbsValue (ps.map Prod.fst) + limbsValue (ps.map Prod.snd) := by
    rw [show ((0 : Word).toNat : Int) = 0 from rfl] at hsum
    zify
    linarith
  obtain ⟨hquot, hmod⟩ := (Nat.div_mod_unique (Nat.two_pow_pos _)).mpr ⟨hsum, hlt⟩
  refine ⟨vs, c, t, hchain, ht, hlen, hmod.symm, by bv_omega, ?_⟩
  calc c = 1
    _ ↔ 0 < c.toNat := by bv_omega
    _ ↔ 2 ^ (64 * ps.length) ≤ limbsValue (ps.map Prod.fst) + limbsValue (ps.map Prod.snd) := by
      rw [← hquot, Nat.div_pos_iff, and_iff_right (Nat.two_pow_pos _)]

/-- Settles O49: the exact chain of subtractions; its limbs are below 2^(64N), so they are the difference modulo 2^(64N), and its
last borrow is 1 exactly when the difference is negative. -/
theorem subChainIsExact : Obligations.SubChainIsExact := by
  intro s ps hf
  obtain ⟨vs, c, t, hchain, ht, hlen, hc, hdiff⟩ := carryChain_exact sbb_callsExactly ps 0 s hf (by simp)
  have hlt := limbsValue_lt vs
  rw [hlen] at hlt
  have hdiff : (limbsValue (ps.map Prod.fst) : Int) - limbsValue (ps.map Prod.snd) =
      limbsValue vs - c.toNat * 2 ^ (64 * ps.length) := by
    rw [show ((0 : Word).toNat : Int) = 0 from rfl] at hdiff
    linarith
  have hborrow : c = 0 ∨ c = 1 := by bv_omega
  refine ⟨vs, c, t, hchain, ht, hlen, ?_, hborrow, ?_⟩
  · rw [hdiff, Int.sub_mul_emod_self_right]
    exact (Int.emod_eq_of_lt (by omega) (by exact_mod_cast hlt)).symm
  · zify at hlt
    rcases hborrow with rfl | rfl
    · have hdiff : (limbsValue (ps.map Prod.fst) : Int) - limbsValue (ps.map Prod.snd) = limbsValue vs := by
        simpa using hdiff
      exact iff_of_false (by decide) (by omega)
    · have hdiff : (limbsValue (ps.map Prod.fst) : Int) - limbsValue (ps.map Prod.snd) =
          limbsValue vs - 2 ^ (64 * ps.length) := by
        simpa using hdiff
      exact iff_of_true rfl (by omega)

/-! ### Division by one limb (R93, R147) -/

/-- One DIV of the chain: with a remainder below the divisor as hi it completes, exactly (R87). -/
theorem call_div {d : Word} (hd : d ≠ 0) {r : Word} (hr : r.toNat < d.toNat) (x : Word) {s : State} (hf : s.fault = false) :
    ∃ q r' t, call .div x r d 0 s = some (q, r', t) ∧ t.fault = false ∧ r'.toNat < d.toNat ∧
      r.toNat * 2 ^ 64 + x.toNat = q.toNat * d.toNat + r'.toNat := by
  obtain ⟨q, r', hres, hq, hrem⟩ := divResult_exact (k := s.checked) hd (.inr hr) x
  obtain ⟨t, hcall, ht⟩ := call_of_ok (i := .div) (d := 0) hf hres
  rw [Nat.mod_eq_of_lt (quotient_lt hr x)] at hq
  refine ⟨q, r', t, hcall, ht, hrem ▸ Nat.mod_lt _ (by omega), ?_⟩
  rw [hq, hrem, Nat.div_add_mod']

theorem divChain_exact {d : Word} (hd : d ≠ 0) {s : State} (hf : s.fault = false) (xs : List Word) :
    ∃ qs r t, divChain d s xs = some (qs, r, t) ∧ t.fault = false ∧ qs.length = xs.length ∧ r.toNat < d.toNat ∧
      limbsValue xs = limbsValue qs * d.toNat + r.toNat := by
  induction xs with
  | nil => exact ⟨[], 0, s, rfl, hf, rfl, BitVec.toNat_pos_of_ne_zero hd, by simp [limbsValue]⟩
  | cons x xs ih =>
    obtain ⟨qs, r, t, hchain, ht, hlen, hr, hval⟩ := ih
    obtain ⟨q, r', u, hcall, hu, hr', hlimb⟩ := call_div hd hr x ht
    refine ⟨q :: qs, r', u, by simp only [divChain, hchain, hcall], hu, by simp [hlen], hr', ?_⟩
    simp only [limbsValue, hval]
    linarith

/-- Settles O50: the exact chain of divisions; its remainder is below the divisor. -/
theorem divChainIsExact : Obligations.DivChainIsExact := by
  intro s d xs hf hd
  obtain ⟨qs, r, t, hchain, ht, hlen, hr, hval⟩ := divChain_exact hd hf xs
  obtain ⟨hq, hrem⟩ := (Nat.div_mod_unique (BitVec.toNat_pos_of_ne_zero hd)).mpr ⟨(show r.toNat + d.toNat * limbsValue qs = limbsValue xs by rw [hval]; ring), hr⟩
  exact ⟨qs, r, t, hchain, ht, hlen, hq.symm, hrem.symm⟩

/-! ### Schoolbook multiplication (R150) -/

/-- One MAC of the loop: any limb and any carry go in (R79). -/
theorem call_mac (p x y c : Word) {s : State} (hf : s.fault = false) :
    ∃ v c' t, call .mac p x y c s = some (v, c', t) ∧ t.fault = false ∧
      p.toNat + x.toNat * y.toNat + c.toNat = c'.toNat * 2 ^ 64 + v.toNat := by
  obtain ⟨v, c', hr, hsum⟩ := macResult_exact p x y c
  obtain ⟨t, hcall, ht⟩ := call_of_ok (i := .mac) hf hr
  exact ⟨v, c', t, hcall, ht, hsum⟩

/-- A row adds `x` times the multiplicand to the product's limbs under it, writes the last carry over the limb after those, and
leaves the limbs further on. -/
theorem mulRow_exact (x p : Word) (rest ys : List Word) :
    ∀ (ps : List Word) (c : Word) (s : State), ps.length = ys.length → s.fault = false →
      ∃ vs t, mulRow x c s (ps ++ p :: rest) ys = some (vs ++ rest, t) ∧ t.fault = false ∧ vs.length = ys.length + 1 ∧
        limbsValue vs = limbsValue ps + x.toNat * limbsValue ys + c.toNat := by
  induction ys with
  | nil =>
    intro ps c s hlen hf
    obtain rfl := List.eq_nil_of_length_eq_zero hlen
    exact ⟨[c], s, rfl, hf, rfl, by simp [limbsValue]⟩
  | cons y ys ih =>
    intro ps c s hlen hf
    obtain ⟨q, ps, rfl⟩ := List.exists_cons_of_length_eq_add_one hlen
    obtain ⟨v, c', t, hcall, ht, hlimb⟩ := call_mac q x y c hf
    obtain ⟨vs, u, hrow, hu, hlen', hval⟩ := ih ps c' t (by simpa using hlen) ht
    refine ⟨v :: vs, u, by simp only [List.cons_append, mulRow, hcall, hrow], hu, by simp [hlen'], ?_⟩
    simp only [limbsValue, hval]
    linarith

/-- The rows add the product to the limbs that the first row finds under it, the limbs after those being those still unwritten. -/
theorem mulRows_exact (ys xs : List Word) :
    ∀ (ps : List Word) (s : State), ps.length = ys.length → s.fault = false →
      ∃ out t, mulRows ys s (ps ++ List.replicate xs.length 0) xs = some (out, t) ∧ t.fault = false ∧
        out.length = xs.length + ys.length ∧ limbsValue out = limbsValue ps + limbsValue xs * limbsValue ys := by
  induction xs with
  | nil =>
    intro ps s hlen hf
    exact ⟨ps, s, by simp [mulRows], hf, by simp [hlen], by simp [limbsValue]⟩
  | cons x xs ih =>
    intro ps s hlen hf
    obtain ⟨vs, t, hrow, ht, hvs, hval⟩ := mulRow_exact x 0 (List.replicate xs.length 0) ys ps 0 s hlen hf
    obtain ⟨p, vs, rfl⟩ := List.exists_cons_of_length_eq_add_one hvs
    obtain ⟨out, u, hrows, hu, hlen', hout⟩ := ih vs t (by simpa using hvs) ht
    refine ⟨p :: out, u, ?_, hu, by simp [hlen']; omega, ?_⟩
    · simp only [List.length_cons, List.replicate_succ, mulRows, hrow, List.cons_append, hrows]
    · rw [limbsValue, show (0 : Word).toNat = 0 from rfl] at hval
      rw [limbsValue, limbsValue, hout]
      linarith

/-- Settles O51: the rows start from limbs that are all 0. -/
theorem schoolbookIsExact : Obligations.SchoolbookIsExact := by
  intro s xs ys hf
  obtain ⟨out, t, hrows, ht, hlen, hval⟩ := mulRows_exact ys xs (List.replicate ys.length 0) s (by simp) hf
  refine ⟨out, t, ?_, ht, hlen, by rw [hval, limbsValue_replicate_zero, Nat.zero_add]⟩
  rw [schoolbook, Nat.add_comm, List.replicate_add, hrows]

end Sys2Proof.Machine
end
